-- ==== Sys2Proof/Word.lean ====
section
/-! DEFINITION. The bit-vector types of the machine (00_scope.md R4, R5). -/

namespace Sys2Proof

/-- A byte of memory, of an instruction, or of one 8-bit port (R4: "A byte is 8 bits"). -/
abbrev Byte := BitVec 8

/-- A 16-bit value: a segment selector or the low half of a register. -/
abbrev Half := BitVec 16

/-- A 32-bit value: a general register, `pc`, or a transferred datum zero-extended to 32 bits. -/
abbrev Word := BitVec 32

/-- An address of the I/O address space, 0 to 65535 (20_memory.md R40). -/
abbrev Port := BitVec 16

end Sys2Proof
end

