-- ==== Sys2Proof/Syntax.lean ====
section
/-! DEFINITION. The instructions: one constructor of `Instr` per row of spec/opcode_table.json. -/

namespace Sys2Proof

/-- The three transfer widths (20_memory.md R44: "32, 16, or 8 bits at a time"). -/
inductive Width where
  | byte
  | word
  | dword
  deriving DecidableEq, Repr

/-- A value of the operand-size or of the address-size attribute (30_encoding.md R72, R73). -/
inductive SizeAttr where
  | s16
  | s32
  deriving DecidableEq, Repr

/-- The six segment registers (10_state.md R24). -/
inductive SegName where
  | es
  | cs
  | ss
  | ds
  | fs
  | gs
  deriving DecidableEq, Repr

/-- What the prefix bytes read so far have recorded (30_encoding.md R81 (1)), and how many there were (R74). -/
structure Prefixes where
  /-- `F3` seen. -/
  rep : Bool := false
  /-- `F2` seen: no instruction in scope runs after it (R77), but it is consumed and counted like any other (R74). -/
  repne : Bool := false
  /-- `F0` seen: as for `F2`. -/
  lock : Bool := false
  /-- `66` seen. -/
  opToggle : Bool := false
  /-- `67` seen. -/
  adToggle : Bool := false
  /-- The last segment override seen. -/
  seg : Option SegName := none
  /-- The number of prefix bytes, repeated ones counted each time. -/
  count : Nat := 0
  deriving DecidableEq, Repr

/-- No prefix: the machine is at the first byte of an instruction. -/
def Prefixes.none : Prefixes := {}

/-- The instructions of spec/opcode_table.json, in its order. A row in the format PREFIX is a byte that stands
before an opcode; it is an instruction here, whose effect is to record itself (notes/assumptions/1.md). -/
inductive Instr where
  /-- `IN AL, imm8`, R101. -/
  | inAlImm (ib : Byte)
  /-- `IN AX, imm8`, R102. -/
  | inAxImm (ib : Byte)
  /-- `IN EAX, imm8`, R103. -/
  | inEaxImm (ib : Byte)
  /-- `IN AL, DX`, R104. -/
  | inAlDx
  /-- `IN AX, DX`, R105. -/
  | inAxDx
  /-- `IN EAX, DX`, R106. -/
  | inEaxDx
  /-- `OUT imm8, AL`, R107. -/
  | outImmAl (ib : Byte)
  /-- `OUT imm8, AX`, R108. -/
  | outImmAx (ib : Byte)
  /-- `OUT imm8, EAX`, R109. -/
  | outImmEax (ib : Byte)
  /-- `OUT DX, AL`, R110. -/
  | outDxAl
  /-- `OUT DX, AX`, R111. -/
  | outDxAx
  /-- `OUT DX, EAX`, R112. -/
  | outDxEax
  /-- `INSB`, R121. -/
  | insb
  /-- `INSW`, R122. -/
  | insw
  /-- `INSD`, R123. -/
  | insd
  /-- `OUTSB`, R124. -/
  | outsb
  /-- `OUTSW`, R125. -/
  | outsw
  /-- `OUTSD`, R126. -/
  | outsd
  /-- `CLI`, R151. -/
  | cli
  /-- `STI`, R152. -/
  | sti
  /-- `POPF`, R153. -/
  | popf
  /-- `POPFD`, R153. -/
  | popfd
  /-- The repeat prefix `F3`, R127. -/
  | rep
  /-- The operand-size prefix `66`, R72. -/
  | operandSize
  /-- The address-size prefix `67`, R73. -/
  | addressSize
  /-- The segment override `26`, R129. -/
  | segEs
  /-- The segment override `2E`, R129. -/
  | segCs
  /-- The segment override `36`, R129. -/
  | segSs
  /-- The segment override `3E`, R129. -/
  | segDs
  /-- The segment override `64`, R129. -/
  | segFs
  /-- The segment override `65`, R129. -/
  | segGs
  deriving DecidableEq, Repr

/-- Why the decoder gives no instruction (30_encoding.md R77, R78). Of one byte, `repnePrefix` and `lockPrefix` say only
that it is `F2` or `F0`, a prefix byte without a row in the table; of a whole instruction, that it is refused for it. -/
inductive DecodeError where
  /-- The byte is no opcode of R76: "opcode not in scope", not a fault of the chip and not a no-op (R78). -/
  | opcodeNotInScope (b : Byte)
  /-- `F2`, which has no defined meaning on any instruction in scope (R77, D27). -/
  | repnePrefix
  /-- `F0`, which is accepted on no instruction in scope (R77, D27). -/
  | lockPrefix
  /-- `F3` on an instruction that is no string instruction: "no defined meaning: refuse" (R77). -/
  | repOnNonString
  /-- The bytes end before the instruction does. -/
  | missingByte
  deriving DecidableEq, Repr

end Sys2Proof
end

