-- ==== Sys2Proof/Config.lean ====
section
/-! DEFINITION. The parameters of the machine (00_scope.md R3), as plain data that State holds, and the free values. -/

namespace Sys2Proof

/-- `IOPB_FETCH_BYTES` (60_exceptions.md R181): how many bytes of the permission map a check needs. -/
inductive IopbFetch where
  /-- 1, what the source's own rules say. -/
  | one
  /-- 2, what later documentation of the processor says. -/
  | two
  deriving DecidableEq, Repr

/-- `TSS_KIND` (60_exceptions.md R182): whether the current TSS is "a 80386 TSS segment". -/
inductive TssKind where
  | i386
  | older
  deriving DecidableEq, Repr

/-- Memory locations `start .. start + size - 1` that belong to a memory-mapped device (20_memory.md R50, D31). -/
structure DeviceWindow where
  start : Nat
  size : Nat
  deriving DecidableEq, Repr

/-- One clause of the parameter `Seg` (R3; 20_memory.md R53, D9): where the bytes of an operand of width `width` lie, at
the offsets `first .. last` of segment `seg`, for reads or for writes. A list of clauses can say any function of segment,
offset, width and kind, for there are finitely many of them: an expand-down segment, pages, an operand that wraps at the
top of the offsets, a fault inside the limit. -/
structure SegRule where
  seg : SegName
  /-- The width of the offset: "the width of the address size (16 or 32 bits)" (R53). -/
  address : SizeAttr
  /-- `kind`: the clause is for writes, or for reads. -/
  write : Bool
  width : Width
  first : Word
  last : Word
  /-- The locations of the bytes of the operand at offset `first`, byte 0 first, all of them one further for each
  further offset; or `Seg` signals its fault. -/
  locations : Option (List Nat)
  deriving DecidableEq, Repr

/-- The parameters the spec leaves OPEN (R3): "A model takes every OPEN parameter as an argument". No step writes one,
so a claim about every state is a claim about every value of every parameter. -/
structure Config where
  /-- `DEFAULT_SIZE`, the operand and address size when no size prefix is present (30_encoding.md R72, R73). -/
  defaultSize : SizeAttr
  iopbFetch : IopbFetch
  tssKind : TssKind
  /-- The memory-mapped devices of the platform. -/
  devices : List DeviceWindow
  /-- `Seg`, clause by clause, the first that covers an operand deciding; of an operand that none covers the base, limit
  and rights of the segment register decide (notes/assumptions/8.md). -/
  segRules : List SegRule
  /-- The program text is at the `pc` values `textStart .. textEnd - 1` (10_state.md R16, 20_memory.md R60). -/
  textStart : Nat
  /-- The end address given with the launch (70_reset_and_hazards.md R195). -/
  textEnd : Nat
  deriving DecidableEq, Repr

/-- FREE VALUE: the `n`-th answer of the environment that State does not list: what a port or device read returns
(20_memory.md R46, R48: any value), and the image `POPF` takes (42_flag_instructions.md R153).
notes/assumptions/7.md. -/
opaque Config.answer : Nat → Word

/-- FREE VALUE: what the stack pointer holds after the `n`-th draw of a `POPF` (R153: "the stack pointer update
[is] not in the source and not specified here"). notes/assumptions/13.md. -/
opaque Config.stackPointerAfterPop : Nat → Word

end Sys2Proof
end

