-- ==== Sys2Proof/WellFormed.lean ====
section
/-! DEFINITION. Which instructions exist at which operand-size attribute (30_encoding.md R72, R76). -/

namespace Sys2Proof

/-- The operand-size attribute a row asks for, the field "opsize" of the table: rows that share an opcode byte are
told apart by it (R76). `none`: the row exists at both sizes. -/
def Instr.sizeNeeded : Instr → Option SizeAttr
  | .inAxImm _ | .inAxDx | .outImmAx _ | .outDxAx | .insw | .outsw | .popf => some .s16
  | .inEaxImm _ | .inEaxDx | .outImmEax _ | .outDxEax | .insd | .outsd | .popfd => some .s32
  | .inAlImm _ | .inAlDx | .outImmAl _ | .outDxAl | .insb | .outsb | .cli | .sti => none
  | .rep | .operandSize | .addressSize => none
  | .segEs | .segCs | .segSs | .segDs | .segFs | .segGs => none

/-- The instruction exists at the operand-size attribute `sz`. -/
def Instr.wf (sz : SizeAttr) (i : Instr) : Bool :=
  match i.sizeNeeded with
  | none => true
  | some needed => needed == sz

/-- The rows in the format PREFIX. -/
def Instr.isPrefix : Instr → Bool
  | .rep | .operandSize | .addressSize => true
  | .segEs | .segCs | .segSs | .segDs | .segFs | .segGs => true
  | .inAlImm _ | .inAxImm _ | .inEaxImm _ | .inAlDx | .inAxDx | .inEaxDx => false
  | .outImmAl _ | .outImmAx _ | .outImmEax _ | .outDxAl | .outDxAx | .outDxEax => false
  | .insb | .insw | .insd | .outsb | .outsw | .outsd => false
  | .cli | .sti | .popf | .popfd => false

/-- The string instructions, the only ones the repeat prefix has a meaning on (R77). -/
def Instr.isString : Instr → Bool
  | .insb | .insw | .insd | .outsb | .outsw | .outsd => true
  | .inAlImm _ | .inAxImm _ | .inEaxImm _ | .inAlDx | .inAxDx | .inEaxDx => false
  | .outImmAl _ | .outImmAx _ | .outImmEax _ | .outDxAl | .outDxAx | .outDxEax => false
  | .cli | .sti | .popf | .popfd => false
  | .rep | .operandSize | .addressSize => false
  | .segEs | .segCs | .segSs | .segDs | .segFs | .segGs => false

end Sys2Proof
end

