-- ==== Sys2Proof/Decode.lean ====
section
/-! DEFINITION. The decoder and the encoder (30_encoding.md R71 to R81; every byte value is the spec's own choice from
general knowledge, notes/assumptions/2.md). -/

namespace Sys2Proof

/-- The instruction that takes an immediate byte, by opcode and operand-size attribute (R76). -/
def decodeOpcodeIb (sz : SizeAttr) (op : Nat) : Option (Byte → Instr) :=
  match op, sz with
  | 0xE4, _ => some .inAlImm
  | 0xE5, .s16 => some .inAxImm
  | 0xE5, .s32 => some .inEaxImm
  | 0xE6, _ => some .outImmAl
  | 0xE7, .s16 => some .outImmAx
  | 0xE7, .s32 => some .outImmEax
  | _, _ => none

/-- The instruction or prefix that is one byte, by that byte and the operand-size attribute (R76). -/
def decodeOpcode (sz : SizeAttr) (op : Nat) : Option Instr :=
  match op, sz with
  | 0xEC, _ => some .inAlDx
  | 0xED, .s16 => some .inAxDx
  | 0xED, .s32 => some .inEaxDx
  | 0xEE, _ => some .outDxAl
  | 0xEF, .s16 => some .outDxAx
  | 0xEF, .s32 => some .outDxEax
  | 0x6C, _ => some .insb
  | 0x6D, .s16 => some .insw
  | 0x6D, .s32 => some .insd
  | 0x6E, _ => some .outsb
  | 0x6F, .s16 => some .outsw
  | 0x6F, .s32 => some .outsd
  | 0xFA, _ => some .cli
  | 0xFB, _ => some .sti
  | 0x9D, .s16 => some .popf
  | 0x9D, .s32 => some .popfd
  | 0xF3, _ => some .rep
  | 0x66, _ => some .operandSize
  | 0x67, _ => some .addressSize
  | 0x26, _ => some .segEs
  | 0x2E, _ => some .segCs
  | 0x36, _ => some .segSs
  | 0x3E, _ => some .segDs
  | 0x64, _ => some .segFs
  | 0x65, _ => some .segGs
  | _, _ => none

/-- The instruction or prefix at the head of the bytes, at the operand-size attribute `sz`. Every byte sequence is
decoded or rejected by name; the bytes after the instruction are not looked at. `F2` and `F0` are prefix bytes (R74) of
no row: who reads a whole instruction consumes them and reads on. -/
def decode (sz : SizeAttr) : List Byte → Except DecodeError Instr
  | [] => .error .missingByte
  | op :: rest =>
    match decodeOpcodeIb sz op.toNat with
    | some mk =>
      match rest with
      | [] => .error .missingByte
      | ib :: _ => .ok (mk ib)
    | none =>
      match decodeOpcode sz op.toNat with
      | some i => .ok i
      | none =>
        if op.toNat = 0xF2 then .error .repnePrefix
        else if op.toNat = 0xF0 then .error .lockPrefix
        else .error (.opcodeNotInScope op)

/-- The bytes of an instruction or prefix (R71, R76). -/
def encode : Instr → List Byte
  | .inAlImm ib => [0xE4, ib]
  | .inAxImm ib => [0xE5, ib]
  | .inEaxImm ib => [0xE5, ib]
  | .inAlDx => [0xEC]
  | .inAxDx => [0xED]
  | .inEaxDx => [0xED]
  | .outImmAl ib => [0xE6, ib]
  | .outImmAx ib => [0xE7, ib]
  | .outImmEax ib => [0xE7, ib]
  | .outDxAl => [0xEE]
  | .outDxAx => [0xEF]
  | .outDxEax => [0xEF]
  | .insb => [0x6C]
  | .insw => [0x6D]
  | .insd => [0x6D]
  | .outsb => [0x6E]
  | .outsw => [0x6F]
  | .outsd => [0x6F]
  | .cli => [0xFA]
  | .sti => [0xFB]
  | .popf => [0x9D]
  | .popfd => [0x9D]
  | .rep => [0xF3]
  | .operandSize => [0x66]
  | .addressSize => [0x67]
  | .segEs => [0x26]
  | .segCs => [0x2E]
  | .segSs => [0x36]
  | .segDs => [0x3E]
  | .segFs => [0x64]
  | .segGs => [0x65]

/-- `len` without the prefixes before it (R74): the opcode or prefix byte, and the immediate byte. -/
def Instr.opLength (i : Instr) : Nat := (encode i).length

/-- The longest instruction that is executed (R74). -/
def maxLength : Nat := 15

/-- One of the sizes exchanged for the other when its prefix was seen (R81 (2)). -/
def SizeAttr.toggled (sz : SizeAttr) (t : Bool) : SizeAttr :=
  match t, sz with
  | false, _ => sz
  | true, .s16 => .s32
  | true, .s32 => .s16

/-- `opsize` (R81 (2)). -/
def Prefixes.operandSize (dflt : SizeAttr) (p : Prefixes) : SizeAttr := dflt.toggled p.opToggle

/-- `adsize` (R81 (2)). -/
def Prefixes.addressSize (dflt : SizeAttr) (p : Prefixes) : SizeAttr := dflt.toggled p.adToggle

/-- `F3` read: a repeated prefix acts as one, but is a byte more (R74, R81 (1)). -/
def Prefixes.noteRep (p : Prefixes) : Prefixes := { p with rep := true, count := p.count + 1 }

/-- `F2` read. -/
def Prefixes.noteRepne (p : Prefixes) : Prefixes := { p with repne := true, count := p.count + 1 }

/-- `F0` read. -/
def Prefixes.noteLock (p : Prefixes) : Prefixes := { p with lock := true, count := p.count + 1 }

/-- `66` read. -/
def Prefixes.noteOperandSize (p : Prefixes) : Prefixes := { p with opToggle := true, count := p.count + 1 }

/-- `67` read. -/
def Prefixes.noteAddressSize (p : Prefixes) : Prefixes := { p with adToggle := true, count := p.count + 1 }

/-- A segment override read: the last one seen is the one that counts (R81 (1)). -/
def Prefixes.noteSegment (r : SegName) (p : Prefixes) : Prefixes := { p with seg := some r, count := p.count + 1 }

/-- The record after the prefix row `i`; a row that is no prefix records nothing. -/
def Prefixes.note (i : Instr) (p : Prefixes) : Prefixes :=
  match i with
  | .rep => p.noteRep
  | .operandSize => p.noteOperandSize
  | .addressSize => p.noteAddressSize
  | .segEs => p.noteSegment .es
  | .segCs => p.noteSegment .cs
  | .segSs => p.noteSegment .ss
  | .segDs => p.noteSegment .ds
  | .segFs => p.noteSegment .fs
  | .segGs => p.noteSegment .gs
  | .inAlImm _ | .inAxImm _ | .inEaxImm _ | .inAlDx | .inAxDx | .inEaxDx => p
  | .outImmAl _ | .outImmAx _ | .outImmEax _ | .outDxAl | .outDxAx | .outDxEax => p
  | .insb | .insw | .insd | .outsb | .outsw | .outsd => p
  | .cli | .sti | .popf | .popfd => p

/-- R81 (5): what R77 refuses of the prefixes read, on a string instruction or on another (notes/assumptions/25.md). -/
def Prefixes.refusedOn (p : Prefixes) (string : Bool) : Option DecodeError :=
  if p.lock then some .lockPrefix
  else if p.repne then some .repnePrefix
  else if p.rep && !string then some .repOnNonString
  else Option.none

/-- A whole instruction read in R81's order: prefixes first, each recorded, then the opcode at the operand size they
leave, with its immediate, then the refusals. The result is the record of the prefixes and the instruction they modify.
-/
def decodeWhole (dflt : SizeAttr) : Prefixes → List Byte → Except DecodeError (Prefixes × Instr)
  | _, [] => .error .missingByte
  | p, b :: rest =>
    match decode (p.operandSize dflt) (b :: rest) with
    | .ok i =>
      if i.isPrefix then decodeWhole dflt (p.note i) rest
      else
        match p.refusedOn i.isString with
        | some e => .error e
        | Option.none => .ok (p, i)
    | .error .repnePrefix => decodeWhole dflt p.noteRepne rest
    | .error .lockPrefix => decodeWhole dflt p.noteLock rest
    | .error (.opcodeNotInScope op) => .error (.opcodeNotInScope op)
    | .error .repOnNonString => .error .repOnNonString
    | .error .missingByte => .error .missingByte

/-- The `n` low bytes of `w`, the least significant first: byte `k` is bits `8k+7 .. 8k`. -/
def wordBytes : Nat → Nat → List Byte
  | 0, _ => []
  | n + 1, w => BitVec.ofNat 8 w :: wordBytes n (w / 256)

/-- The instruction whose bits are `w`, `nbits` of them from the table, as the bytes the hardware stores: the first at
the lowest address, and zeros up to the longest instruction. -/
def tableBytes (nbits w : Nat) : List Byte := wordBytes maxLength (w % 2 ^ nbits)

/-- The instruction the decoder reads from a word of the table, at the operand size of State.reset (16, R72:
notes/assumptions/27.md). -/
def decodeTableWord (nbits w : Nat) : Option Instr :=
  match decode .s16 (tableBytes nbits w) with
  | .ok i => some i
  | .error _ => none

end Sys2Proof
end

