-- ==== Sys2Proof/Machine/State.lean ====
section
/-! DEFINITION. The state of the machine (10_state.md), its reset value, and the reasons a step can stop. -/

namespace Sys2Proof.Machine

/-- The three modes of operation (10_state.md R23). -/
inductive Mode where
  | realMode
  /-- Protected mode other than virtual 8086 mode. -/
  | protectedMode
  | virtual8086
  deriving DecidableEq, Repr

/-- The flags register, the three fields the spec models (10_state.md R17 to R20). -/
structure Flags where
  /-- DF: 0 increments the index registers, 1 decrements them (R19). -/
  direction : Bool
  /-- IF, the interrupt-enable flag (R18). -/
  interruptEnable : Bool
  /-- IOPL (R17). -/
  iopl : BitVec 2
  deriving DecidableEq, Repr

/-- A segment register (10_state.md R24) with what `Seg` (20_memory.md R53) makes of it where no clause of
`Config.segRules` says otherwise: the segment's first location, the offset of its last byte, and its rights
(notes/assumptions/8.md). -/
structure SegReg where
  selector : Half
  base : Word
  limit : Word
  readable : Bool
  writable : Bool
  deriving DecidableEq, Repr

/-- What the environment sees of the processor, in order (20_memory.md R46, R47, R53, R56). A value narrower than 32
bits is zero-extended. -/
inductive Event where
  /-- `PortRead(p, n)` returned `v` (R46). -/
  | portRead (p : Port) (w : Width) (v : Word)
  /-- `PortWrite(p, n, v)` (R47). -/
  | portWrite (p : Port) (w : Width) (v : Word)
  /-- `MemRead` of an operand whose bytes are at the locations `locs`, in part at least in a device's window, returned
  `v`. -/
  | deviceRead (locs : List Nat) (v : Word)
  /-- `MemWrite` of `v` to such an operand. -/
  | deviceWrite (locs : List Nat) (v : Word)
  deriving DecidableEq, Repr

/-- The instruction and the port a general protection exception is about: the model's own label, not architectural
state (60_exceptions.md R170). -/
inductive GpCause where
  | cli
  | sti
  | port (p : Port) (w : Width)
  deriving DecidableEq, Repr

/-- Why a step ends the run with a fault. In each the instruction has had no effect and `pc` is at it
(60_exceptions.md R171). -/
inductive Fault where
  /-- Raised by `CLI`, `STI`, `IN`, `OUT`, `INS`, `OUTS` as 60_exceptions.md R169 lists. Safe: R171 and D13 make it
  the end of the run, and nothing after it is modelled. -/
  | generalProtection (c : GpCause)
  /-- Raised by any instruction of more than 15 bytes, its prefixes `F2` and `F0` counted, "not executed (it raises an exception)" (30_encoding.md R74).
  Safe: the exception's entry is not described. -/
  | instructionTooLong
  /-- Raised by `OUTS` whose memory operand the parameter `Seg` does not allow (20_memory.md R53, D9). Safe: its
  effect is not described. -/
  | memoryOperand (r : SegName)
  deriving DecidableEq, Repr

/-- Why a step is refused: the spec gives it no meaning. All are safe: the model goes no further. -/
inductive Refusal where
  /-- Raised by no meaning: an instruction whose arm in exec is still to come. -/
  | notModelled (mnemonic : String)
  /-- Raised by fetch: the opcode is outside the spec (30_encoding.md R78). -/
  | opcodeNotInScope (b : Byte)
  /-- Raised by every instruction that has `F2` before it (30_encoding.md R77, D27). -/
  | repnePrefix
  /-- Raised by every instruction that has `F0` before it (30_encoding.md R77, D27). -/
  | lockPrefix
  /-- Raised by every instruction that is no string instruction after `F3` (30_encoding.md R77, D27). -/
  | repOnNonString
  /-- Raised by fetch when `pc` is the end address given with the launch: the run is over (70_reset_and_hazards.md
  R195). -/
  | endOfProgram
  /-- Raised by fetch when the instruction is not wholly inside the program text, or `pc + len` would leave it
  (10_state.md R16, D24). -/
  | outsideProgram
  /-- Raised by port transfers whose span passes port 65535 when no check denies them (20_memory.md R49, D8). -/
  | portSpanPastTop
  /-- Raised by `INS` whose destination `Seg` does not let it write (41_block_io.md R128, D12). -/
  | insDestinationNotWritable
  /-- Raised by `INS` whose destination overlaps the program text (20_memory.md R60, D26). -/
  | insIntoProgramText
  /-- Raised by `POPF` in virtual 8086 mode (42_flag_instructions.md R153, D21). -/
  | popfInVirtual8086
  /-- Raised when the permission map is consulted and the current TSS is not of the 80386 kind (60_exceptions.md
  R182, D29). -/
  | tssNotI386
  /-- Raised when the permission map is consulted and the TSS has no I/O map base field: `tss_limit < 0x67`
  (60_exceptions.md R164, D16). -/
  | tssTooSmall
  /-- Raised when the permission map is consulted and the TSS bytes `0x66 .. tss_limit` are not all readable memory
  (60_exceptions.md R182, D16). -/
  | tssNotReadable
  deriving DecidableEq, Repr

/-- Memory: the bytes that are not 0, addresses strictly rising (notes/assumptions/6.md). -/
abbrev Memory := List Host.Cell

/-- The machine. Every field is state the spec names, but for `inputs`, `draws` and `events`, which are the model's
own (INVENTORY.md). -/
structure State where
  /-- 10_state.md R10. -/
  eax : Word
  /-- R15; nothing in scope reads or writes it. -/
  ebx : Word
  /-- R14: the repeat count. -/
  ecx : Word
  /-- R11: `DX`, the port register, is its low half. -/
  edx : Word
  /-- R12. -/
  esi : Word
  /-- R13. -/
  edi : Word
  /-- R15; nothing in scope reads or writes it. -/
  ebp : Word
  /-- R15; only `POPF` moves it. -/
  esp : Word
  /-- R16: `EIP`, the offset of the current instruction's first byte. -/
  pc : Word
  /-- R17 to R21. -/
  flags : Flags
  /-- R23. -/
  mode : Mode
  /-- R22; `State.currentCpl` reads it. -/
  cpl : BitVec 2
  /-- R24. -/
  es : SegReg
  /-- R24. -/
  cs : SegReg
  /-- R24. -/
  ss : SegReg
  /-- R24. -/
  ds : SegReg
  /-- R24. -/
  fs : SegReg
  /-- R24. -/
  gs : SegReg
  /-- R25: the location of the current TSS. -/
  tssBase : Word
  /-- R25: the offset of the last byte of the TSS. -/
  tssLimit : Word
  /-- R30, the TSS and its map (R26 to R28) among it. -/
  mem : Memory
  /-- 30_encoding.md R81 (1): the prefixes of the instruction in progress. -/
  prefixes : Prefixes
  /-- 00_scope.md R3: the parameters of the launch. -/
  cfg : Config
  /-- The port and device events so far, the first one first. -/
  events : List Event
  /-- The environment's next answers. -/
  inputs : List Word
  /-- How many free values have been drawn. -/
  draws : Nat
  deriving DecidableEq, Repr

/-- Each field is named by an update of its own, so that Laws/State.lean can say once what it leaves alone. -/
def State.setEax (s : State) (v : Word) : State := { s with eax := v }
/-- Write `ECX`. -/
def State.setEcx (s : State) (v : Word) : State := { s with ecx := v }
/-- Write `ESI`. -/
def State.setEsi (s : State) (v : Word) : State := { s with esi := v }
/-- Write `EDI`. -/
def State.setEdi (s : State) (v : Word) : State := { s with edi := v }
/-- Write `ESP`. -/
def State.setEsp (s : State) (v : Word) : State := { s with esp := v }
/-- Write `pc`. -/
def State.setPc (s : State) (v : Word) : State := { s with pc := v }
/-- Write the flags register. -/
def State.setFlags (s : State) (f : Flags) : State := { s with flags := f }
/-- Write memory. -/
def State.setMem (s : State) (m : Memory) : State := { s with mem := m }
/-- Write the prefix record. -/
def State.setPrefixes (s : State) (p : Prefixes) : State := { s with prefixes := p }
/-- Append an event. -/
def State.record (s : State) (e : Event) : State := { s with events := s.events ++ [e] }
/-- Use up one answer of the environment. -/
def State.dropAnswer (s : State) : State := { s with inputs := s.inputs.tail, draws := s.draws + 1 }

/-- A data segment as reset leaves it (PRESUMED, notes/assumptions/5.md). -/
def resetDataSegment : SegReg :=
  { selector := 0, base := 0, limit := 0xFFFF, readable := true, writable := true }

/-- `CS` as reset leaves it (PRESUMED, notes/assumptions/5.md): its rights too, readable and writable both, which the
spec does not give. -/
def resetCodeSegment : SegReg :=
  { selector := 0xF000, base := 0xFFFF0000, limit := 0xFFFF, readable := true, writable := true }

/-- The machine right after reset. The spec gives no reset value for anything (10_state.md R33, R190); every value
here is named in notes/assumptions/5.md (registers, with the rights of all six segments), 6.md (memory), 7.md
(environment), 8.md (`Seg`) and 16.md (program text). -/
def State.reset : State where
  eax := 0
  ebx := 0
  ecx := 0
  edx := 0x00000308
  esi := 0
  edi := 0
  ebp := 0
  esp := 0
  pc := 0x0000FFF0
  flags := { direction := false, interruptEnable := false, iopl := 0 }
  mode := .realMode
  cpl := 0
  es := resetDataSegment
  cs := resetCodeSegment
  ss := resetDataSegment
  ds := resetDataSegment
  fs := resetDataSegment
  gs := resetDataSegment
  tssBase := 0
  tssLimit := 0
  mem := []
  prefixes := Prefixes.none
  cfg :=
    { defaultSize := .s16, iopbFetch := .one, tssKind := .i386, devices := [], segRules := [], textStart := 0,
      textEnd := 0 }
  events := []
  inputs := []
  draws := 0

end Sys2Proof.Machine
end

