-- ==== Sys2Proof/Machine/Operands.lean ====
section
/-! DEFINITION. Every operand form: the accumulator by width, the port, the index and count registers by address size,
the segment of the memory operand (30_encoding.md R75; 41_block_io.md R120, R127, R129, R130). -/

namespace Sys2Proof.Machine

/-- `n = w/8`, the width in bytes (00_scope.md R5). -/
def widthBytes : Width → Nat
  | .byte => 1
  | .word => 2
  | .dword => 4

/-- The low `w` bits of a value, zero-extended. -/
def truncTo (w : Width) (v : Word) : Word :=
  match w with
  | .byte => (v.setWidth 8).setWidth 32
  | .word => (v.setWidth 16).setWidth 32
  | .dword => v

/-- `old` with its low `w` bits replaced by those of `v`: writing a narrow name leaves the other bits of the wide
register unchanged (10_state.md R10; notes/assumptions/4.md). -/
def insertLow (w : Width) (old v : Word) : Word :=
  match w with
  | .byte => old.extractLsb' 8 24 ++ v.setWidth 8
  | .word => old.extractLsb' 16 16 ++ v.setWidth 16
  | .dword => v

/-- `x[AL]`, `x[AX]` or `x[EAX]`, zero-extended (10_state.md R10). -/
def State.accumulator (s : State) (w : Width) : Word := truncTo w s.eax

/-- `x[AL] <- v`, `x[AX] <- v` or `x[EAX] <- v` (10_state.md R10). -/
def State.setAccumulator (s : State) (w : Width) (v : Word) : State := s.setEax (insertLow w s.eax v)

/-- The port an immediate byte names: `zext_16(imm8)`, unscaled (20_memory.md R42). -/
def immPort (ib : Byte) : Port := ib.setWidth 16

/-- The port `DX` names: all 16 bits, unscaled (20_memory.md R43). -/
def State.dxPort (s : State) : Port := s.edx.setWidth 16

/-- The operand-size attribute of the instruction in progress (30_encoding.md R72, R81 (2)). -/
def State.operandSize (s : State) : SizeAttr := s.prefixes.operandSize s.cfg.defaultSize

/-- The address-size attribute of the instruction in progress (30_encoding.md R73, R81 (2)). -/
def State.addressSize (s : State) : SizeAttr := s.prefixes.addressSize s.cfg.defaultSize

/-- A register read at the address size: all of it, or its low half zero-extended (41_block_io.md R120). -/
def sizedRead (a : SizeAttr) (r : Word) : Word :=
  match a with
  | .s32 => r
  | .s16 => truncTo .word r

/-- A register written at the address size: with 16, the upper half is kept (41_block_io.md R130). -/
def sizedWrite (a : SizeAttr) (r v : Word) : Word :=
  match a with
  | .s32 => v
  | .s16 => insertLow .word r v

/-- An index register after the transfer of an element of width `w`: stepped up (DF = 0) or down (DF = 1) by the
element's bytes, modulo 2^A (41_block_io.md R120, R130). -/
def steppedIndex (a : SizeAttr) (down : Bool) (w : Width) (r : Word) : Word :=
  let off := sizedRead a r
  let n := BitVec.ofNat 32 (widthBytes w)
  sizedWrite a r (if down then off - n else off + n)

/-- The repeat count: `ECX`, or `CX` at address size 16 (10_state.md R14). -/
def State.repeatCount (s : State) : Word := sizedRead s.addressSize s.ecx

/-- The repeat count written (10_state.md R14). -/
def State.setRepeatCount (s : State) (v : Word) : State := s.setEcx (sizedWrite s.addressSize s.ecx v)

/-- The segment register by its name (10_state.md R24). -/
def State.segment (s : State) : SegName → SegReg
  | .es => s.es
  | .cs => s.cs
  | .ss => s.ss
  | .ds => s.ds
  | .fs => s.fs
  | .gs => s.gs

/-- The segment of the `OUTS` source: `DS` unless overridden (41_block_io.md R129). -/
def State.outsSegment (s : State) : SegName := s.prefixes.seg.getD .ds

/-- CPL (10_state.md R22): "In v86 mode CPL is 3" (notes/assumptions/22.md). -/
def State.currentCpl (s : State) : BitVec 2 :=
  match s.mode with
  | .virtual8086 => 3
  | .realMode | .protectedMode => s.cpl

end Sys2Proof.Machine
end

