-- ==== Sys2Proof/Machine/Flags.lean ====
section
/-! DEFINITION. Every flag computation: the flags image, CLI, STI and POPF (42_flag_instructions.md R151 to R153). The
I/O instructions change no flag (10_state.md R20). -/

namespace Sys2Proof.Machine

/-- IF is bit 9 of the image (10_state.md R18; notes/assumptions/24.md). -/
def imageInterruptEnable (img : Word) : Bool := img.getLsbD 9

/-- DF is bit 10 of the image (10_state.md R19). -/
def imageDirection (img : Word) : Bool := img.getLsbD 10

/-- IOPL is bits 13..12 of the image (10_state.md R17). -/
def imageIopl (img : Word) : BitVec 2 := img.extractLsb' 12 2

/-- `flags.IF <- b`, no other flag (42_flag_instructions.md R151, R152). -/
def Flags.withInterruptEnable (f : Flags) (b : Bool) : Flags := { f with interruptEnable := b }

/-- The comparison `CPL ≤ IOPL` of unsigned numbers (60_exceptions.md R162). -/
def State.cplWithinIopl (s : State) : Bool := s.currentCpl ≤ s.flags.iopl

/-- `CLI` and `STI` may execute: in real mode always, otherwise only if `CPL ≤ IOPL` (42_flag_instructions.md R151). -/
def State.sensitiveAllowed (s : State) : Bool :=
  match s.mode with
  | .realMode => true
  | .protectedMode | .virtual8086 => s.cplWithinIopl

/-- `POPF` may change IOPL: in real mode, or at privilege level 0 (42_flag_instructions.md R153 (a)). -/
def State.popfChangesIopl (s : State) : Bool :=
  match s.mode with
  | .realMode => true
  | .protectedMode | .virtual8086 => s.currentCpl == 0

/-- `POPF` may change IF: in real mode, or with `CPL ≤ IOPL`, the IOPL in force before it (R153 (b)). -/
def State.popfChangesIf (s : State) : Bool :=
  match s.mode with
  | .realMode => true
  | .protectedMode | .virtual8086 => s.cplWithinIopl

/-- The flags register after `POPF` takes `img` (R153): a change that is not allowed is dropped without an
exception. -/
def State.poppedFlags (s : State) (img : Word) : Flags where
  direction := imageDirection img
  interruptEnable := if s.popfChangesIf then imageInterruptEnable img else s.flags.interruptEnable
  iopl := if s.popfChangesIopl then imageIopl img else s.flags.iopl

end Sys2Proof.Machine
end

