-- ==== Sys2Proof/Machine/Ops.lean ====
section
/-! DEFINITION. The shared operations: memory, segments, the environment, the I/O protection check, the general
protection exception, and the completion of an instruction. -/

namespace Sys2Proof.Machine

/-- What a step answers. -/
abbrev Result := Host.Outcome State Fault Refusal

/-- The second part of an instruction, run on the state the first part leaves. -/
def andThen (r : Result) (k : State → Result) : Result :=
  match r with
  | .next s => k s
  | .fault e => .fault e
  | .refused e => .refused e

/-! ### Memory (20_memory.md R53, R54, R63; little-endian, notes/assumptions/23.md) -/

/-- What a byte that nothing has written reads as (notes/assumptions/6.md). -/
def Memory.unlisted : Byte := 0

/-- The number of memory locations (notes/assumptions/6.md). -/
def memorySize : Nat := 2 ^ 32

/-- One byte of memory. -/
def Memory.read : Memory → Nat → Byte
  | [], _ => Memory.unlisted
  | (a', b) :: rest, a => if a = a' then b else Memory.read rest a

/-- A cell at the head of a memory whose other addresses are greater, left out where it reads as an unlisted one. -/
def Memory.cell (a : Nat) (b : Byte) (rest : Memory) : Memory :=
  if b = Memory.unlisted then rest else (a, b) :: rest

/-- Write one byte, keeping the canonical form. -/
def Memory.write : Memory → Nat → Byte → Memory
  | [], a, b => Memory.cell a b []
  | (a', b') :: rest, a, b =>
    if a < a' then Memory.cell a b ((a', b') :: rest)
    else if a = a' then Memory.cell a b rest
    else (a', b') :: Memory.write rest a b

/-- The canonical form: addresses strictly rising, no entry equal to what an unlisted address reads as. -/
abbrev Memory.wf (m : Memory) : Prop :=
  m.Pairwise (fun c d => c.1 < d.1) ∧ ∀ c ∈ m, c.2 ≠ Memory.unlisted

/-- No entry lies outside the memory address space. -/
abbrev Memory.bounded (m : Memory) : Prop := ∀ c ∈ m, c.1 < memorySize

/-- The `n` bytes from `a` on, the lowest location least significant (R62). -/
def Memory.readLE (m : Memory) : Nat → Nat → Word
  | _, 0 => 0
  | a, n + 1 => (Memory.readLE m (a + 1) n) <<< 8 ||| (Memory.read m a).setWidth 32

/-- The bytes at the locations, the first least significant (R53); a location that `dev` says is a device's answers with
its byte of `ans`. -/
def Memory.loadLE (dev : Nat → Bool) (m : Memory) : List Nat → Word → Word
  | [], _ => 0
  | a :: as, ans =>
    (Memory.loadLE dev m as (ans >>> 8)) <<< 8 ||| (if dev a then ans.setWidth 8 else Memory.read m a).setWidth 32

/-- Store byte `i` of `v` at the `i`-th location (R53), but for the locations that `dev` says are a device's, which
memory does not hold. -/
def Memory.storeLE (dev : Nat → Bool) (m : Memory) : List Nat → Word → Memory
  | [], _ => m
  | a :: as, v => Memory.storeLE dev (if dev a then m else Memory.write m a (v.setWidth 8)) as (v >>> 8)

/-- Place a list of bytes from `a` on. -/
def Memory.writeBytes (m : Memory) : Nat → List Byte → Memory
  | _, [] => m
  | a, b :: bs => Memory.writeBytes (Memory.write m a b) (a + 1) bs

/-- The location is a memory-mapped device's (20_memory.md R50). -/
def State.isDevice (s : State) (a : Nat) : Bool :=
  s.cfg.devices.any fun d => d.start ≤ a && a < d.start + d.size

/-- Some of the locations are a device's. -/
def State.touchesDevice (s : State) (as : List Nat) : Bool := as.any s.isDevice

/-! ### The environment (20_memory.md R46 to R48; notes/assumptions/7.md) -/

/-- The answer the environment gives next: the one listed, or a free value. -/
def State.nextAnswer (s : State) : Word :=
  match s.inputs with
  | v :: _ => v
  | [] => Config.answer s.draws

/-- The value `PortRead(p, n)` returns: the environment's, at the transfer's width (R46). -/
def State.portValue (s : State) (w : Width) : Word := truncTo w s.nextAnswer

/-- `PortRead(p, n)`: the answer is used up and the read is an event (R46, R56). A misaligned read is one event like
any other (R45; notes/assumptions/20.md). -/
def State.portRead (s : State) (p : Port) (w : Width) : State :=
  s.dropAnswer.record (.portRead p w (s.portValue w))

/-- `PortWrite(p, n, v)`: an event, and no change to the processor (R47). -/
def State.portWrite (s : State) (p : Port) (w : Width) (v : Word) : State :=
  s.record (.portWrite p w (truncTo w v))

/-- The value `MemRead` returns for the operand whose bytes are at the locations (R53); where no device is among them the
environment's answer has no part in it. -/
def State.memValue (s : State) (as : List Nat) : Word := Memory.loadLE s.isDevice s.mem as s.nextAnswer

/-- `MemRead`: a device in the operand answers, which is an event; memory alone is read without one (R53;
notes/assumptions/19.md). -/
def State.memRead (s : State) (as : List Nat) : State :=
  if s.touchesDevice as then s.dropAnswer.record (.deviceRead as (s.memValue as)) else s

/-- `MemWrite` of `v` to the operand whose bytes are at the locations (R53). -/
def State.memWrite (s : State) (as : List Nat) (v : Word) : State :=
  let s' := s.setMem (Memory.storeLE s.isDevice s.mem as v)
  if s.touchesDevice as then s'.record (.deviceWrite as v) else s'

/-! ### Segments: the parameter `Seg` (20_memory.md R53, D9; notes/assumptions/8.md) -/

/-- `kind ∈ (read, write)` as a right of the segment. -/
def SegReg.allows (d : SegReg) (write : Bool) : Bool := if write then d.writable else d.readable

/-- The locations the segment register alone gives an operand: from base plus offset on, within its limit and rights. -/
def SegReg.locations (d : SegReg) (off : Word) (w : Width) (write : Bool) : Option (List Nat) :=
  if d.allows write && off.toNat + widthBytes w - 1 ≤ d.limit.toNat then
    some (List.range' (d.base.toNat + off.toNat) (widthBytes w))
  else none

/-- The clause of `Seg` speaks of this operand. -/
def clauseCovers (q : SegRule) (size : SizeAttr) (r : SegName) (off : Word) (w : Width) (write : Bool) : Bool :=
  q.seg == r && q.address == size && q.width == w && q.write == write && decide (q.first ≤ off) && decide (off ≤ q.last)

/-- The locations the clause gives an operand that it covers. -/
def clauseLocations (q : SegRule) (off : Word) : Option (List Nat) :=
  q.locations.map fun as => as.map fun a => a + (off.toNat - q.first.toNat)

/-- They are "`n` byte locations" "of the memory address space" (R53, D9): `n` of them, no two the same. -/
def areLocations (w : Width) (as : List Nat) : Bool :=
  as.length == widthBytes w && decide as.Nodup && as.all fun a => decide (a < memorySize)

/-- `Seg(s, off, n, kind)`: the locations of the operand's bytes, byte 0 first, by the first clause that covers the
operand or else by the segment register; or none where `Seg` signals its fault, to which what is no `n` locations of
memory is put down. -/
def State.segLocations (s : State) (size : SizeAttr) (r : SegName) (off : Word) (w : Width) (write : Bool) :
    Option (List Nat) :=
  let given :=
    match s.cfg.segRules.find? fun q => clauseCovers q size r off w write with
    | some q => clauseLocations q off
    | none => (s.segment r).locations off w write
  given.filter (areLocations w)

/-- Some of the locations hold program text (20_memory.md R60). -/
def State.overlapsText (s : State) (as : List Nat) : Bool :=
  let base := s.cs.base.toNat
  as.any fun a => base + s.cfg.textStart ≤ a && a < base + s.cfg.textEnd

/-! ### The current TSS (10_state.md R25 to R28; notes/assumptions/9.md) -/

/-- `TssRead(off, n)`: subject to no segment register and to no privilege (20_memory.md R62). -/
def State.tssRead (s : State) (off n : Nat) : Word := Memory.readLE s.mem (s.tssBase.toNat + off) n

/-- The offset of the I/O map base field: bits 31..16 of the doubleword at 64 hex (R26, R27). -/
def ioMapBaseOffset : Nat := 0x66

/-- The offset of the last byte of the fixed portion of the TSS (R26). -/
def tssFixedLast : Nat := 0x67

/-- The I/O map base, an unsigned 16-bit offset (R27). -/
def State.ioMapBase (s : State) : Nat := (s.tssRead ioMapBaseOffset 2).toNat

/-- The `TSS BACK LINK` field, offset 0, bits 15..0 (R26); no rule reads it. -/
def State.tssBackLink (s : State) : Half := (s.tssRead 0 2).setWidth 16

/-- The `GS` field, offset 5C hex, bits 15..0 (R26); no rule reads it. -/
def State.tssGs (s : State) : Half := (s.tssRead 0x5C 2).setWidth 16

/-- The `LDT` field, offset 60 hex, bits 15..0 (R26, 90_conflicts.md C7); no rule reads it. -/
def State.tssLdt (s : State) : Half := (s.tssRead 0x60 2).setWidth 16

/-- The bit `T`, bit 0 of the doubleword at 64 hex (R26, 60_exceptions.md R178); no rule reads it. -/
def State.tssT (s : State) : Bool := (s.tssRead 0x64 1).getLsbD 0

/-- The conditions on the launch under which the permission map can be consulted (60_exceptions.md R164, R182): the
refusal where one fails. -/
def State.tssRefusal (s : State) : Option Refusal :=
  if s.cfg.tssKind ≠ .i386 then some .tssNotI386
  else if s.tssLimit.toNat < tssFixedLast then some .tssTooSmall
  else if memorySize ≤ s.tssBase.toNat + s.tssLimit.toNat then some .tssNotReadable
  else if s.cfg.devices.any fun d => 0 < d.size &&
      d.start ≤ s.tssBase.toNat + s.tssLimit.toNat && s.tssBase.toNat + ioMapBaseOffset < d.start + d.size then
    some .tssNotReadable
  else none

/-! ### The I/O protection check (60_exceptions.md R164 to R168, R181) -/

/-- What the check says of a transfer. -/
inductive Verdict where
  /-- "the I/O operation may proceed". -/
  | pass
  /-- "signals a general protection exception". -/
  | deny
  /-- The launch is refused. -/
  | refuse (r : Refusal)
  deriving DecidableEq, Repr

/-- One port of the span: denied when it is past port 65535 ("beyond any map", 20_memory.md R49, D8), when its byte is
beyond the limit (R166), or when its bit is 1 (R165). `a` is a plain integer, never wrapped to 16 bits. -/
def State.portDenied (s : State) (a : Nat) : Bool :=
  let o := s.ioMapBase + a / 8
  decide (65535 < a) || decide (s.tssLimit.toNat < o) || (s.tssRead o 1).getLsbD (a % 8)

/-- The map is consulted for the `n` ports from `p` on (R164, from the read of the I/O map base on). -/
def State.consultMap (s : State) (p : Port) (w : Width) : Verdict :=
  match s.tssRefusal with
  | some r => .refuse r
  | none =>
    if s.tssLimit.toNat ≤ s.ioMapBase then .deny
    else if s.cfg.iopbFetch = .two ∧ s.tssLimit.toNat < s.ioMapBase + p.toNat / 8 + 1 then .deny
    else if (List.range (widthBytes w)).any fun i => s.portDenied (p.toNat + i) then .deny
    else .pass

/-- `IoCheck(p, n)` (R164). It writes no state. -/
def State.ioCheck (s : State) (p : Port) (w : Width) : Verdict :=
  match s.mode with
  | .realMode => .pass
  | .protectedMode => if s.cplWithinIopl then .pass else s.consultMap p w
  | .virtual8086 => s.consultMap p w

/-! ### The general protection exception (60_exceptions.md R169 to R172) -/

/-- The exception's number on the hardware, for the record: no rule uses it (R169, D13). -/
def gpVector : Nat := 13

/-- The error code on the hardware, for the record (R169, D13). -/
def gpErrorCode : Nat := 0

/-- TAKING THE EXCEPTION, `raise GeneralProtection` (R171): "the instruction has no effect on registers, flags, memory
or ports; pc stays at the instruction; the step's outcome is a fault that ends the run". There is no entry to take
and no return (R172; notes/assumptions/11.md). -/
def raiseGeneralProtection (c : GpCause) : Result := .fault (.generalProtection c)

/-! ### The frame of an instruction -/

/-- `pc <- pc + len`, `len` the prefixes and the `opLen` bytes after them (10_state.md R16, 30_encoding.md R74); the
next instruction starts without prefixes. -/
def State.complete (s : State) (opLen : Nat) : State :=
  (s.setPc (s.pc + BitVec.ofNat 32 (s.prefixes.count + opLen))).setPrefixes Prefixes.none

/-- `pc` unchanged: the same instruction executes again, from its first prefix on (41_block_io.md R127). -/
def State.again (s : State) : State := s.setPrefixes Prefixes.none

/-- "An instruction longer than 15 bytes is not executed (it raises an exception)" (30_encoding.md R74;
notes/assumptions/17.md). -/
def withinLength (opLen : Nat) (s : State) (k : State → Result) : Result :=
  if maxLength < s.prefixes.count + opLen then .fault .instructionTooLong else k s

/-- Why there is no instruction to run (30_encoding.md R77, R78; 70_reset_and_hazards.md R195). -/
def State.refusalFor (s : State) : DecodeError → Refusal
  | .opcodeNotInScope b => .opcodeNotInScope b
  | .repnePrefix => .repnePrefix
  | .lockPrefix => .lockPrefix
  | .repOnNonString => .repOnNonString
  | .missingByte =>
    if s.prefixes.count = 0 ∧ s.pc.toNat = s.cfg.textEnd then .endOfProgram else .outsideProgram

/-- The start of every instruction: its length (R74), then what R77 refuses of the prefixes before it (R81 (5)). -/
def accepting (opLen : Nat) (string : Bool) (s : State) (k : State → Result) : Result :=
  withinLength opLen s fun s =>
    match s.prefixes.refusedOn string with
    | some e => .refused (s.refusalFor e)
    | none => k s

/-- An instruction that is no string instruction. -/
def plain (opLen : Nat) (s : State) (k : State → Result) : Result := accepting opLen false s k

/-- The guard of every port transfer: the protection check first (R164), then the span (20_memory.md R49). DESIGN CHOICE
(notes/assumptions/14.md): a span past port 65535 is refused here, before the memory operand of `INS` or `OUTS` is
looked at, so that an `OUTS` whose operand `Seg` forbids too is refused, and gives no memory fault. -/
def guarded (p : Port) (w : Width) (s : State) (k : State → Result) : Result :=
  match s.ioCheck p w with
  | .deny => raiseGeneralProtection (.port p w)
  | .refuse r => .refused r
  | .pass => if 65536 < p.toNat + widthBytes w then .refused .portSpanPastTop else k s

/-- The guard of `CLI` and `STI` (42_flag_instructions.md R151). -/
def sensitive (c : GpCause) (s : State) (k : State → Result) : Result :=
  if s.sensitiveAllowed then k s else raiseGeneralProtection c

/-- A string instruction, with or without the repeat prefix: one step is one element (41_block_io.md R127). -/
def repeated (s : State) (element : State → Result) : Result :=
  accepting 1 true s fun s =>
    if s.prefixes.rep then
      if s.repeatCount = 0 then .next (s.complete 1)
      else andThen (element s) fun t =>
        let t' := t.setRepeatCount (t.repeatCount - 1)
        .next (if t'.repeatCount = 0 then t'.complete 1 else t'.again)
    else andThen (element s) fun t => .next (t.complete 1)

end Sys2Proof.Machine
end

