-- ==== Sys2Proof/Machine/BlockIo.lean ====
section
/-! DEFINITION. The block I/O instructions (41_block_io.md R120 to R131). -/

namespace Sys2Proof.Machine

/-- The locations of the `INS` destination: `ES` whatever the override, at the index before the update (R120, R129). -/
def State.insLocations (s : State) (w : Width) : Option (List Nat) :=
  s.segLocations s.addressSize .es (sizedRead s.addressSize s.edi) w true

/-- The locations of the `OUTS` source (R120, R129). -/
def State.outsLocations (s : State) (w : Width) : Option (List Nat) :=
  s.segLocations s.addressSize s.outsSegment (sizedRead s.addressSize s.esi) w false

/-- `EDI` or `DI` stepped past an element (R120). -/
def State.stepEdi (s : State) (w : Width) : State :=
  s.setEdi (steppedIndex s.addressSize s.flags.direction w s.edi)

/-- `ESI` or `SI` stepped past an element (R120). -/
def State.stepEsi (s : State) (w : Width) : State :=
  s.setEsi (steppedIndex s.addressSize s.flags.direction w s.esi)

/-- One element of `INS`: check, destination, port read, memory write, index (R121 to R123, R128). The destination is
found writable, and outside the program text, before the port is read (notes/assumptions/15.md). -/
def insElement (w : Width) (s : State) : Result :=
  guarded s.dxPort w s fun s =>
    match s.insLocations w with
    | none => .refused .insDestinationNotWritable
    | some as =>
      if s.overlapsText as then .refused .insIntoProgramText
      else .next (((s.portRead s.dxPort w).memWrite as (s.portValue w)).stepEdi w)

/-- One element of `OUTS`: check, memory read, port write, index (R124 to R126, R128). -/
def outsElement (w : Width) (s : State) : Result :=
  guarded s.dxPort w s fun s =>
    match s.outsLocations w with
    | none => .fault (.memoryOperand s.outsSegment)
    | some as => .next (((s.memRead as).portWrite s.dxPort w (s.memValue as)).stepEsi w)

/-- `INSB` (R121), `REP INSB` (R127). -/
def execInsb (s : State) : Result := repeated s (insElement .byte)

/-- `INSW` (R122), `REP INSW` (R127). -/
def execInsw (s : State) : Result := repeated s (insElement .word)

/-- `INSD` (R123), `REP INSD` (R127). -/
def execInsd (s : State) : Result := repeated s (insElement .dword)

/-- `OUTSB` (R124), `REP OUTSB` (R127). -/
def execOutsb (s : State) : Result := repeated s (outsElement .byte)

/-- `OUTSW` (R125), `REP OUTSW` (R127). -/
def execOutsw (s : State) : Result := repeated s (outsElement .word)

/-- `OUTSD` (R126), `REP OUTSD` (R127). -/
def execOutsd (s : State) : Result := repeated s (outsElement .dword)

end Sys2Proof.Machine
end

