-- ==== Sys2Proof/Machine/FlagInstr.lean ====
section
/-! DEFINITION. The IOPL-sensitive flag instructions (42_flag_instructions.md R150 to R154). -/

namespace Sys2Proof.Machine

/-- `CLI` (R151). -/
def execCli (s : State) : Result :=
  plain 1 s fun s => sensitive .cli s fun s => .next ((s.setFlags (s.flags.withInterruptEnable false)).complete 1)

/-- `STI` (R152). No interrupt is ever delivered, so that the one-instruction delay has no effect
(notes/assumptions/12.md). -/
def execSti (s : State) : Result :=
  plain 1 s fun s => sensitive .sti s fun s => .next ((s.setFlags (s.flags.withInterruptEnable true)).complete 1)

/-- `POPF` and `POPFD` (R153). The image is the environment's answer and the stack pointer is left with a free value:
"how it is taken, and the stack pointer update, are not in the source" (notes/assumptions/13.md). -/
def popFlags (s : State) : Result :=
  plain 1 s fun s =>
    match s.mode with
    | .virtual8086 => .refused .popfInVirtual8086
    | .realMode | .protectedMode =>
      .next (((s.dropAnswer.setFlags (s.poppedFlags s.nextAnswer)).setEsp
        (Config.stackPointerAfterPop s.draws)).complete 1)

/-- `POPF` (R153). IOPL, IF and DF lie in the low 16 bits of the image, so that the 16-bit form updates them too. -/
def execPopf (s : State) : Result := popFlags s

/-- `POPFD` (R153). -/
def execPopfd (s : State) : Result := popFlags s

end Sys2Proof.Machine
end

