-- ==== Sys2Proof/Machine/PrefixBytes.lean ====
section
/-! DEFINITION. The prefix bytes (30_encoding.md R72 to R74, R77, R81; 41_block_io.md R127, R129). Each records itself;
`pc` stays at the instruction's first byte (10_state.md R16; notes/assumptions/1.md). -/

namespace Sys2Proof.Machine

/-- A prefix byte is read: `p` is the record with it. An opcode has still to follow, so that a fifteenth prefix makes
the instruction longer than 15 bytes (R74). -/
def notePrefix (p : Prefixes) (s : State) : Result := withinLength 2 s fun s => .next (s.setPrefixes p)

/-- `REP`, `F3` (R127). -/
def execRep (s : State) : Result := notePrefix s.prefixes.noteRep s

/-- The operand-size prefix, `66` (R72). -/
def execOperandSize (s : State) : Result := notePrefix s.prefixes.noteOperandSize s

/-- The address-size prefix, `67` (R73). -/
def execAddressSize (s : State) : Result := notePrefix s.prefixes.noteAddressSize s

/-- The segment override `26` (R129). -/
def execSegEs (s : State) : Result := notePrefix (s.prefixes.noteSegment .es) s

/-- The segment override `2E` (R129). -/
def execSegCs (s : State) : Result := notePrefix (s.prefixes.noteSegment .cs) s

/-- The segment override `36` (R129). -/
def execSegSs (s : State) : Result := notePrefix (s.prefixes.noteSegment .ss) s

/-- The segment override `3E` (R129). -/
def execSegDs (s : State) : Result := notePrefix (s.prefixes.noteSegment .ds) s

/-- The segment override `64` (R129). -/
def execSegFs (s : State) : Result := notePrefix (s.prefixes.noteSegment .fs) s

/-- The segment override `65` (R129). -/
def execSegGs (s : State) : Result := notePrefix (s.prefixes.noteSegment .gs) s

end Sys2Proof.Machine
end

