-- ==== Sys2Proof/Machine/RegisterIo.lean ====
section
/-! DEFINITION. The register I/O instructions (40_register_io.md R100 to R112). -/

namespace Sys2Proof.Machine

/-- `IN` at width `w` from port `p` (R100): check, port read, accumulator, `pc`. -/
def inputFrom (w : Width) (p : Port) (opLen : Nat) (s : State) : Result :=
  plain opLen s fun s => guarded p w s fun s =>
    .next (((s.portRead p w).setAccumulator w (s.portValue w)).complete opLen)

/-- `OUT` at width `w` to port `p` (R100): check, port write, `pc`. -/
def outputTo (w : Width) (p : Port) (opLen : Nat) (s : State) : Result :=
  plain opLen s fun s => guarded p w s fun s => .next ((s.portWrite p w (s.accumulator w)).complete opLen)

/-- `IN AL, imm8` (R101). -/
def execInAlImm (ib : Byte) (s : State) : Result := inputFrom .byte (immPort ib) 2 s

/-- `IN AX, imm8` (R102). -/
def execInAxImm (ib : Byte) (s : State) : Result := inputFrom .word (immPort ib) 2 s

/-- `IN EAX, imm8` (R103). -/
def execInEaxImm (ib : Byte) (s : State) : Result := inputFrom .dword (immPort ib) 2 s

/-- `IN AL, DX` (R104). -/
def execInAlDx (s : State) : Result := inputFrom .byte s.dxPort 1 s

/-- `IN AX, DX` (R105). -/
def execInAxDx (s : State) : Result := inputFrom .word s.dxPort 1 s

/-- `IN EAX, DX` (R106). -/
def execInEaxDx (s : State) : Result := inputFrom .dword s.dxPort 1 s

/-- `OUT imm8, AL` (R107). -/
def execOutImmAl (ib : Byte) (s : State) : Result := outputTo .byte (immPort ib) 2 s

/-- `OUT imm8, AX` (R108). -/
def execOutImmAx (ib : Byte) (s : State) : Result := outputTo .word (immPort ib) 2 s

/-- `OUT imm8, EAX` (R109). -/
def execOutImmEax (ib : Byte) (s : State) : Result := outputTo .dword (immPort ib) 2 s

/-- `OUT DX, AL` (R110). -/
def execOutDxAl (s : State) : Result := outputTo .byte s.dxPort 1 s

/-- `OUT DX, AX` (R111). -/
def execOutDxAx (s : State) : Result := outputTo .word s.dxPort 1 s

/-- `OUT DX, EAX` (R112). -/
def execOutDxEax (s : State) : Result := outputTo .dword s.dxPort 1 s

end Sys2Proof.Machine
end

