-- ==== Sys2Proof/Machine/Dispatch.lean ====
section
/-! DEFINITION. The meaning of each instruction: one arm per constructor of `Instr`. -/

namespace Sys2Proof.Machine

def exec (i : Instr) (s : State) : Host.Outcome State Fault Refusal :=
  match i with
  | .inAlImm ib => Sys2Proof.Machine.execInAlImm ib s
  | .inAxImm ib => Sys2Proof.Machine.execInAxImm ib s
  | .inEaxImm ib => Sys2Proof.Machine.execInEaxImm ib s
  | .inAlDx => Sys2Proof.Machine.execInAlDx s
  | .inAxDx => Sys2Proof.Machine.execInAxDx s
  | .inEaxDx => Sys2Proof.Machine.execInEaxDx s
  | .outImmAl ib => Sys2Proof.Machine.execOutImmAl ib s
  | .outImmAx ib => Sys2Proof.Machine.execOutImmAx ib s
  | .outImmEax ib => Sys2Proof.Machine.execOutImmEax ib s
  | .outDxAl => Sys2Proof.Machine.execOutDxAl s
  | .outDxAx => Sys2Proof.Machine.execOutDxAx s
  | .outDxEax => Sys2Proof.Machine.execOutDxEax s
  | .insb => Sys2Proof.Machine.execInsb s
  | .insw => Sys2Proof.Machine.execInsw s
  | .insd => Sys2Proof.Machine.execInsd s
  | .outsb => Sys2Proof.Machine.execOutsb s
  | .outsw => Sys2Proof.Machine.execOutsw s
  | .outsd => Sys2Proof.Machine.execOutsd s
  | .cli => Sys2Proof.Machine.execCli s
  | .sti => Sys2Proof.Machine.execSti s
  | .popf => Sys2Proof.Machine.execPopf s
  | .popfd => Sys2Proof.Machine.execPopfd s
  | .rep => Sys2Proof.Machine.execRep s
  | .operandSize => Sys2Proof.Machine.execOperandSize s
  | .addressSize => Sys2Proof.Machine.execAddressSize s
  | .segEs => Sys2Proof.Machine.execSegEs s
  | .segCs => Sys2Proof.Machine.execSegCs s
  | .segSs => Sys2Proof.Machine.execSegSs s
  | .segDs => Sys2Proof.Machine.execSegDs s
  | .segFs => Sys2Proof.Machine.execSegFs s
  | .segGs => Sys2Proof.Machine.execSegGs s

end Sys2Proof.Machine
end

