-- ==== Sys2Proof/Machine/Fetch.lean ====
section
/-! DEFINITION. Where the next byte of the instruction comes from (10_state.md R16, D24; notes/assumptions/16.md), and
what a step does where it starts no row of the table. -/

namespace Sys2Proof.Machine

/-- The offset of the next byte to read: past the prefixes already read. -/
def State.fetchOffset (s : State) : Nat := s.pc.toNat + s.prefixes.count

/-- The offset is one of the program text's whose byte can be read and that `pc` can pass: "a model refuses a program
whose pc + len leaves the range it was given" (R16). Code is at base + offset (D24). -/
def State.inText (s : State) (o : Nat) : Bool :=
  decide (s.cfg.textStart ≤ o) && decide (o < s.cfg.textEnd) && decide (o + 1 < 2 ^ 32)
    && decide (s.cs.base.toNat + o < memorySize)

/-- The bytes of the instruction from the next one on, at most two (no opcode in scope has more after it, R71), as far
as they lie in the program text. -/
def State.fetchBytes (s : State) : List Byte :=
  let o := s.fetchOffset
  let at_ (k : Nat) := Memory.read s.mem (s.cs.base.toNat + (o + k))
  if s.inText o then (if s.inText (o + 1) then [at_ 0, at_ 1] else [at_ 0]) else []

/-- The instruction or prefix the machine reads next, at the operand size the prefixes before it leave (R81). DESIGN CHOICE
(notes/assumptions/17.md): an opcode `E4` to `E7` as the fifteenth byte, whose immediate byte is both past the fifteenth
(30_encoding.md R74) and outside the program text (D24), has no byte to read, and so is refused as outside the program and
is not the length fault. -/
def State.fetch (s : State) : Except DecodeError Instr := decode s.operandSize s.fetchBytes

/-- The step where the bytes give no row: `F2` and `F0` are prefix bytes, consumed and counted like the others (R74,
R81 (1)); anything else is refused by its name (R78). -/
def undecoded (e : DecodeError) (s : State) : Result :=
  match e with
  | .repnePrefix => notePrefix s.prefixes.noteRepne s
  | .lockPrefix => notePrefix s.prefixes.noteLock s
  | .opcodeNotInScope _ | .repOnNonString | .missingByte => .refused (s.refusalFor e)

/-- A program of these bytes loaded at the place of the next fetch, and given as the program text. -/
def State.loadedWith (s : State) (bytes : List Byte) : State :=
  { s with
    mem := Memory.writeBytes s.mem (s.cs.base.toNat + s.fetchOffset) bytes
    cfg := { s.cfg with textStart := s.pc.toNat, textEnd := s.fetchOffset + bytes.length } }

end Sys2Proof.Machine
end

