-- ==== Sys2Proof/Machine/Step.lean ====
section
/-! DEFINITION. One step of the machine: the next instruction or prefix byte is fetched, decoded and run. -/

namespace Sys2Proof.Machine

/-- One step. -/
def step (s : State) : Host.Outcome State Fault Refusal :=
  match s.fetch with
  | .ok i => exec i s
  | .error e => undecoded e s

/-- `s` with the instruction whose bits are `w` loaded where the next step fetches (notes/assumptions/16.md). -/
def State.withFetchWord (s : State) (nbits w : Nat) : State := s.loadedWith (tableBytes nbits w)

end Sys2Proof.Machine
end

