-- ==== Sys2Proof/Safety.lean ====
section
/-! DEFINITION. The terms the statements use: the invariant, safe runs, and what the spec's rules say of a transfer, a
register or the permission map, written apart from the operations of the machine. -/

namespace Sys2Proof.Machine

/-- What every step keeps: memory in canonical form and inside the address space, a prefix record that an instruction
of at most 15 bytes can still follow, and no record without a prefix byte. -/
abbrev Inv (s : State) : Prop :=
  Memory.wf s.mem ∧ Memory.bounded s.mem ∧ s.prefixes.count < maxLength ∧
    (s.prefixes.count = 0 → s.prefixes = Prefixes.none)

/-- A safe run of `n` steps: "a run that raises GeneralProtection ends in a fault and is never final"
(70_reset_and_hazards.md R195). -/
def SafeRun (n : Nat) (s : State) : Prop := ∃ t, Host.Core.run Sys2Proof.core n s = .next t

/-- The bytes stand where the machine fetches next, inside the program text. -/
def State.FetchesBytes (s : State) (bs : List Byte) : Prop :=
  ∀ k b, bs[k]? = some b →
    s.inText (s.fetchOffset + k) = true ∧ Memory.read s.mem (s.cs.base.toNat + (s.fetchOffset + k)) = b

/-- The prefixes read so far are without `F3`, and without `F2` and `F0`, which no instruction in scope runs after
(30_encoding.md R77). -/
abbrev Unrepeated (s : State) : Prop :=
  s.prefixes.rep = false ∧ s.prefixes.repne = false ∧ s.prefixes.lock = false

/-- `F3` is among the prefixes read so far, `F2` and `F0` are not. -/
abbrev Repeated (s : State) : Prop :=
  s.prefixes.rep = true ∧ s.prefixes.repne = false ∧ s.prefixes.lock = false

/-- A row that is no prefix row is not too long with the prefixes before it, and none of them is one that R77 refuses on
it (30_encoding.md R74, R77). -/
abbrev Accepted (i : Instr) (s : State) : Prop :=
  s.prefixes.count + i.opLength ≤ maxLength ∧ s.prefixes.repne = false ∧ s.prefixes.lock = false ∧
    (s.prefixes.rep = true → i.isString = true)

/-- The port and the width of an I/O instruction (40_register_io.md R100, 41_block_io.md R120). -/
def transferOf (i : Instr) (s : State) : Option (Port × Width) :=
  match i with
  | .inAlImm ib | .outImmAl ib => some (ib.setWidth 16, .byte)
  | .inAxImm ib | .outImmAx ib => some (ib.setWidth 16, .word)
  | .inEaxImm ib | .outImmEax ib => some (ib.setWidth 16, .dword)
  | .inAlDx | .outDxAl | .insb | .outsb => some (s.edx.setWidth 16, .byte)
  | .inAxDx | .outDxAx | .insw | .outsw => some (s.edx.setWidth 16, .word)
  | .inEaxDx | .outDxEax | .insd | .outsd => some (s.edx.setWidth 16, .dword)
  | .cli | .sti | .popf | .popfd => none
  | .rep | .operandSize | .addressSize => none
  | .segEs | .segCs | .segSs | .segDs | .segFs | .segGs => none

/-- The width of an `INS`, of an `OUTS`. -/
def insWidth : Instr → Option Width
  | .insb => some .byte
  | .insw => some .word
  | .insd => some .dword
  | .inAlImm _ | .inAxImm _ | .inEaxImm _ | .inAlDx | .inAxDx | .inEaxDx => none
  | .outImmAl _ | .outImmAx _ | .outImmEax _ | .outDxAl | .outDxAx | .outDxEax => none
  | .outsb | .outsw | .outsd | .cli | .sti | .popf | .popfd => none
  | .rep | .operandSize | .addressSize => none
  | .segEs | .segCs | .segSs | .segDs | .segFs | .segGs => none

/-- The width of an `OUTS`. -/
def outsWidth : Instr → Option Width
  | .outsb => some .byte
  | .outsw => some .word
  | .outsd => some .dword
  | .inAlImm _ | .inAxImm _ | .inEaxImm _ | .inAlDx | .inAxDx | .inEaxDx => none
  | .outImmAl _ | .outImmAx _ | .outImmEax _ | .outDxAl | .outDxAx | .outDxEax => none
  | .insb | .insw | .insd | .cli | .sti | .popf | .popfd => none
  | .rep | .operandSize | .addressSize => none
  | .segEs | .segCs | .segSs | .segDs | .segFs | .segGs => none

/-- The instruction writes the accumulator. -/
def isIn : Instr → Bool
  | .inAlImm _ | .inAxImm _ | .inEaxImm _ | .inAlDx | .inAxDx | .inEaxDx => true
  | .outImmAl _ | .outImmAx _ | .outImmEax _ | .outDxAl | .outDxAx | .outDxEax => false
  | .insb | .insw | .insd | .outsb | .outsw | .outsd | .cli | .sti | .popf | .popfd => false
  | .rep | .operandSize | .addressSize => false
  | .segEs | .segCs | .segSs | .segDs | .segFs | .segGs => false

/-- The general protection exception of a sensitive instruction that names no port (42_flag_instructions.md R150). -/
def sensitiveCause (i : Instr) : Option GpCause :=
  match i with
  | .cli => some .cli
  | .sti => some .sti
  | .inAlImm _ | .inAxImm _ | .inEaxImm _ | .inAlDx | .inAxDx | .inEaxDx => none
  | .outImmAl _ | .outImmAx _ | .outImmEax _ | .outDxAl | .outDxAx | .outDxEax => none
  | .insb | .insw | .insd | .outsb | .outsw | .outsd | .popf | .popfd => none
  | .rep | .operandSize | .addressSize => none
  | .segEs | .segCs | .segSs | .segDs | .segFs | .segGs => none

/-- The width in bytes. -/
def bytesOf : Width → Nat
  | .byte => 1
  | .word => 2
  | .dword => 4

/-- The bits of a 32-bit value that a transfer of width `w` moves. -/
def maskOf : Width → Word
  | .byte => 0x000000FF
  | .word => 0x0000FFFF
  | .dword => 0xFFFFFFFF

/-- The bits of a register that an address size covers. -/
def sizeMask : SizeAttr → Word
  | .s16 => 0x0000FFFF
  | .s32 => 0xFFFFFFFF

/-- `old` where the mask is 0, `new` where it is 1. -/
def merged (mask old new : Word) : Word := (old &&& ~~~mask) ||| (new &&& mask)

/-- `r + k·n` with the direction flag clear, `r - k·n` with it set. -/
def stepped (down : Bool) (r : Word) (k n : Nat) : Word :=
  if down then r - BitVec.ofNat 32 (k * n) else r + BitVec.ofNat 32 (k * n)

/-- The value whose bytes are at the locations in memory, the first least significant (92_eei_decisions.md D5). -/
def littleEndian (m : Memory) (as : List Nat) : Word :=
  BitVec.ofNat 32 (as.foldr (fun a v => (Memory.read m a).toNat + 256 * v) 0)

/-- The I/O map base: the two bytes at TSS offsets 66 and 67 hex (10_state.md R27). -/
def mapBase (s : State) : Nat :=
  (Memory.read s.mem (s.tssBase.toNat + 0x67) ++ Memory.read s.mem (s.tssBase.toNat + 0x66)).toNat

/-- The bit of the permission map for port `a`: bit `a mod 8` of the byte at `iobase + floor(a/8)` (10_state.md R28). -/
def mapBit (s : State) (a : Nat) : Bool :=
  (Memory.read s.mem (s.tssBase.toNat + (mapBase s + a / 8))).getLsbD (a % 8)

/-- Port `a` is spanned by the map: its byte lies inside the TSS (60_exceptions.md R166), and it is a port at all. -/
def inMap (s : State) (a : Nat) : Prop := a ≤ 65535 ∧ mapBase s + a / 8 ≤ s.tssLimit.toNat

/-- The permission map is what decides (60_exceptions.md R164): protected mode with CPL > IOPL, or virtual 8086 mode. -/
def mapDecides (s : State) : Prop :=
  (s.mode = .protectedMode ∧ s.flags.iopl < s.cpl) ∨ s.mode = .virtual8086

/-- The launch is one whose TSS can be consulted (60_exceptions.md R164, R182). -/
def tssUsable (s : State) : Prop := s.tssRefusal = none

/-- The map allows the transfer at `w` on port `p`: there is a map (60_exceptions.md R167), with
`IOPB_FETCH_BYTES = 2` the byte after the first tested one is inside the TSS (R181), and every port of the span is in
the map with its bit zero (R165, R166). -/
def mapAllows (s : State) (p : Port) (w : Width) : Prop :=
  tssUsable s ∧ mapBase s < s.tssLimit.toNat ∧
    (s.cfg.iopbFetch = .two → mapBase s + p.toNat / 8 + 1 ≤ s.tssLimit.toNat) ∧
    ∀ k < bytesOf w, inMap s (p.toNat + k) ∧ mapBit s (p.toNat + k) = false

/-- The transfer at `w` on port `p` is allowed to the code now running (60_exceptions.md R183). -/
def permitted (s : State) (p : Port) (w : Width) : Prop :=
  s.mode = .realMode ∨ (s.mode = .protectedMode ∧ s.cpl ≤ s.flags.iopl) ∨ mapAllows s p w

/-- The machine after an instruction of `opLen` bytes that changes nothing: `pc <- pc + len`, and the next instruction
has no prefix yet (10_state.md R16, 30_encoding.md R74). -/
def advanced (s : State) (opLen : Nat) : State :=
  { s with pc := s.pc + BitVec.ofNat 32 (s.prefixes.count + opLen), prefixes := Prefixes.none }

/-- The machine after `IN` at width `w` from port `p` (40_register_io.md R101 to R106): the accumulator's low bits from
the environment, one event, and `pc`. -/
def afterIn (s : State) (w : Width) (p : Port) (opLen : Nat) : State :=
  { advanced s opLen with
    eax := merged (maskOf w) s.eax s.nextAnswer
    events := s.events ++ [.portRead p w (s.nextAnswer &&& maskOf w)]
    inputs := s.inputs.tail
    draws := s.draws + 1 }

/-- The machine after `OUT` at width `w` to port `p` (40_register_io.md R107 to R112): one event, and `pc`. -/
def afterOut (s : State) (w : Width) (p : Port) (opLen : Nat) : State :=
  { advanced s opLen with events := s.events ++ [.portWrite p w (s.eax &&& maskOf w)] }

/-- The row's place in the table of 30_encoding.md R76: the operand size it needs, and its bytes. -/
def EncodedAs (i : Instr) (size : Option SizeAttr) (bytes : List Byte) : Prop :=
  i.sizeNeeded = size ∧ encode i = bytes

/-- The rule of an `IN` form: its bytes; it completes when the check passes and the span exists, it raises when the check
denies. -/
def InRule (i : Instr) (w : Width) (port : State → Port) (size : Option SizeAttr) (bytes : List Byte) : Prop :=
  EncodedAs i size bytes ∧
    ∀ s : State, s.prefixes.count + bytes.length ≤ 15 → Unrepeated s →
      (s.ioCheck (port s) w = .pass → (port s).toNat + bytesOf w - 1 ≤ 65535 →
          exec i s = .next (afterIn s w (port s) bytes.length)) ∧
        (s.ioCheck (port s) w = .deny → exec i s = .fault (.generalProtection (.port (port s) w)))

/-- The rule of an `OUT` form. -/
def OutRule (i : Instr) (w : Width) (port : State → Port) (size : Option SizeAttr) (bytes : List Byte) : Prop :=
  EncodedAs i size bytes ∧
    ∀ s : State, s.prefixes.count + bytes.length ≤ 15 → Unrepeated s →
      (s.ioCheck (port s) w = .pass → (port s).toNat + bytesOf w - 1 ≤ 65535 →
          exec i s = .next (afterOut s w (port s) bytes.length)) ∧
        (s.ioCheck (port s) w = .deny → exec i s = .fault (.generalProtection (.port (port s) w)))

/-- The index register after one element (41_block_io.md R120, R130). -/
def indexAfter (s : State) (w : Width) (r : Word) : Word :=
  merged (sizeMask s.addressSize) r (stepped s.flags.direction r 1 (bytesOf w))

/-- The rule of an `INS` form without `REP` (41_block_io.md R121 to R123). Where it completes: the port's value is in
memory at the operand's locations, byte `k` at the `k`-th, every other byte is unchanged, the index is stepped. It raises
when the check denies, and it is refused when the destination is not writable (R128) or is program text (20_memory.md
R60). That a device in the operand sees one write of the whole operand, and takes no byte of memory, is the model's choice
(notes/assumptions/19.md). -/
def InsRule (i : Instr) (w : Width) (size : Option SizeAttr) (bytes : List Byte) : Prop :=
  EncodedAs i size bytes ∧
    ∀ s : State, s.prefixes.count + 1 ≤ 15 → Unrepeated s →
      (∀ as, Memory.wf s.mem → s.ioCheck (s.edx.setWidth 16) w = .pass →
        (s.edx.setWidth 16).toNat + bytesOf w - 1 ≤ 65535 →
        s.insLocations w = some as → s.overlapsText as = false →
        ∃ t, exec i s = .next t ∧
          t = { advanced s 1 with
                edi := indexAfter s w s.edi
                mem := t.mem
                events := s.events ++ (.portRead (s.edx.setWidth 16) w (s.nextAnswer &&& maskOf w) ::
                  if s.touchesDevice as then [.deviceWrite as (s.nextAnswer &&& maskOf w)] else [])
                inputs := s.inputs.tail
                draws := s.draws + 1 } ∧
          (as.length = bytesOf w ∧ ∀ k a, as[k]? = some a → s.isDevice a = false →
            Memory.read t.mem a = s.nextAnswer.extractLsb' (8 * k) 8) ∧
          ∀ x, (x ∉ as ∨ s.isDevice x = true) → Memory.read t.mem x = Memory.read s.mem x) ∧
      (s.ioCheck (s.edx.setWidth 16) w = .deny →
        exec i s = .fault (.generalProtection (.port (s.edx.setWidth 16) w))) ∧
      (s.ioCheck (s.edx.setWidth 16) w = .pass → (s.edx.setWidth 16).toNat + bytesOf w - 1 ≤ 65535 →
        s.insLocations w = none → exec i s = .refused .insDestinationNotWritable) ∧
      ∀ as, s.ioCheck (s.edx.setWidth 16) w = .pass → (s.edx.setWidth 16).toNat + bytesOf w - 1 ≤ 65535 →
        s.insLocations w = some as → s.overlapsText as = true → exec i s = .refused .insIntoProgramText

/-- The rule of an `OUTS` form without `REP` (41_block_io.md R124 to R126) on an operand in plain memory. -/
def OutsRule (i : Instr) (w : Width) (size : Option SizeAttr) (bytes : List Byte) : Prop :=
  EncodedAs i size bytes ∧
    ∀ s : State, s.prefixes.count + 1 ≤ 15 → Unrepeated s →
      (∀ as, s.ioCheck (s.edx.setWidth 16) w = .pass → (s.edx.setWidth 16).toNat + bytesOf w - 1 ≤ 65535 →
          s.outsLocations w = some as → (∀ a ∈ as, s.isDevice a = false) →
          exec i s = .next { advanced s 1 with
            esi := indexAfter s w s.esi
            events := s.events ++ [.portWrite (s.edx.setWidth 16) w (littleEndian s.mem as)] }) ∧
        (s.ioCheck (s.edx.setWidth 16) w = .deny →
          exec i s = .fault (.generalProtection (.port (s.edx.setWidth 16) w))) ∧
        (s.ioCheck (s.edx.setWidth 16) w = .pass → (s.edx.setWidth 16).toNat + bytesOf w - 1 ≤ 65535 →
          s.outsLocations w = none → exec i s = .fault (.memoryOperand s.outsSegment))

/-- The flags of the machine after `POPF` with the image `img` (42_flag_instructions.md R153), at a given CPL. -/
def popped (s : State) (img : Word) : Flags where
  direction := img.getLsbD 10
  interruptEnable :=
    if s.mode = .realMode ∨ s.cpl ≤ s.flags.iopl then img.getLsbD 9 else s.flags.interruptEnable
  iopl := if s.mode = .realMode ∨ s.cpl = 0 then img.extractLsb' 12 2 else s.flags.iopl

/-- The repeat count at the address size (10_state.md R14). -/
def countOf (s : State) : Word := s.ecx &&& sizeMask s.addressSize

/-- The instruction is accepted, and its checks are made: it is not repeated zero times (41_block_io.md R127). -/
abbrev Attempts (i : Instr) (s : State) : Prop := Accepted i s ∧ (s.prefixes.rep = true → countOf s ≠ 0)

/-- What the environment answers after `k` answers more (20_memory.md R46; notes/assumptions/7.md). -/
def answerAfter (s : State) (k : Nat) : Word := (s.inputs[k]?).getD (Config.answer (s.draws + k))

/-- The prefix bytes (30_encoding.md R74). -/
def prefixBytes : List Byte := [0xF3, 0xF2, 0xF0, 0x66, 0x67, 0x26, 0x2E, 0x36, 0x3E, 0x64, 0x65]

/-- The record after one more prefix byte (30_encoding.md R81 (1); the segments by R76). -/
def recorded (p : Prefixes) (b : Byte) : Prefixes where
  rep := p.rep || b == 0xF3
  repne := p.repne || b == 0xF2
  lock := p.lock || b == 0xF0
  opToggle := p.opToggle || b == 0x66
  adToggle := p.adToggle || b == 0x67
  seg :=
    if b = 0x26 then some .es else if b = 0x2E then some .cs else if b = 0x36 then some .ss
    else if b = 0x3E then some .ds else if b = 0x64 then some .fs else if b = 0x65 then some .gs else p.seg
  count := p.count + 1

/-- The record that the prefix bytes `pre` leave, read one after another from no prefix on. -/
def recordOf (pre : List Byte) : Prefixes := pre.foldl recorded Prefixes.none

/-- A `REP` block about to start: at an instruction boundary, the prefix bytes `pre` with `F3` among them, but neither
`F2` nor `F0`, and then the string instruction `i` stand in the program text, and the count register holds `n`. -/
def RepBlockAt (s : State) (pre : List Byte) (i : Instr) (n : Nat) : Prop :=
  s.prefixes = Prefixes.none ∧ (∀ b ∈ pre, b ∈ prefixBytes) ∧ 0xF3 ∈ pre ∧ 0xF2 ∉ pre ∧ 0xF0 ∉ pre ∧
    pre.length ≤ 14 ∧ i.wf ((recordOf pre).operandSize s.cfg.defaultSize) = true ∧
    s.FetchesBytes (pre ++ encode i) ∧
    (s.ecx &&& sizeMask ((recordOf pre).addressSize s.cfg.defaultSize)).toNat = n ∧ 0 < n

/-- The machine in the middle of a string instruction with the prefix bytes `pre`, before its element `k`: the prefixes
recorded and the index register `ESI` (`EDI`) stepped `k` times, all else as in `s`. -/
def atElement (s : State) (pre : List Byte) (w : Width) (k : Nat) : State :=
  { s with
    prefixes := recordOf pre
    esi := stepped s.flags.direction s.esi k (bytesOf w)
    edi := stepped s.flags.direction s.edi k (bytesOf w) }

end Sys2Proof.Machine
end

