-- ==== Sys2Proof/Certificates/Slice0/Obligations.lean ====
section
/-! DEFINITION. The statements for the provers. Each docstring names the rules of spec/ it formalises. Every statement is
about a machine to which no interrupt is delivered (60_exceptions.md R173, D22). -/

open Sys2Proof Sys2Proof.Machine

/-! ### Encoding -/

/-- Words written out from the table of 30_encoding.md R76, one or more of each family, decode to their rows. -/
def Obligations.KnownWordsDecode : Prop :=
  decode .s16 [0xE4, 0x60] = .ok (.inAlImm 0x60) ∧ decode .s16 [0xE5, 0x10] = .ok (.inAxImm 0x10) ∧
    decode .s32 [0xE5, 0x10] = .ok (.inEaxImm 0x10) ∧ decode .s32 [0xED] = .ok .inEaxDx ∧
    decode .s16 [0xE7, 0x70] = .ok (.outImmAx 0x70) ∧ decode .s32 [0xEF] = .ok .outDxEax ∧
    decode .s16 [0x6D] = .ok .insw ∧ decode .s32 [0x6F] = .ok .outsd ∧ decode .s16 [0xFA] = .ok .cli ∧
    decode .s16 [0x9D] = .ok .popf ∧ decode .s16 [0xF3] = .ok .rep ∧ decode .s16 [0x2E] = .ok .segCs

/-- Decoding and encoding agree: the decoder answers `i` exactly on the encodings of the well-formed `i`, at either
operand size, whatever follows (30_encoding.md R71, R72, R76). -/
def Obligations.DecodeIffEncoding : Prop :=
  ∀ (sz : SizeAttr) (bs : List Byte) (i : Instr),
    decode sz bs = .ok i ↔ i.wf sz = true ∧ ∃ rest, bs = encode i ++ rest

/-- A whole instruction in R81's order: the prefixes are recorded, the opcode is read at the operand size they leave, the
bytes after the instruction are not looked at, and only then are the prefixes of R77 refused; an opcode that is not in
R76 is refused by name whatever the prefixes (R78). Which of two refused prefixes gives the name is the model's choice
(notes/assumptions/25.md). -/
def Obligations.WholeInstructionDecodes : Prop :=
  ∀ (dflt : SizeAttr) (pre : List Byte) (rest : List Byte), (∀ b ∈ pre, b ∈ prefixBytes) →
    (∀ i : Instr, i.isPrefix = false → i.wf ((recordOf pre).operandSize dflt) = true →
      decodeWhole dflt Prefixes.none (pre ++ (encode i ++ rest)) =
        if 0xF0 ∈ pre then .error .lockPrefix
        else if 0xF2 ∈ pre then .error .repnePrefix
        else if 0xF3 ∈ pre ∧ i.isString = false then .error .repOnNonString
        else .ok (recordOf pre, i)) ∧
      ∀ b : Byte, b ∉ prefixBytes → (∀ i : Instr, (encode i).head? ≠ some b) →
        decodeWhole dflt Prefixes.none (pre ++ b :: rest) = .error (.opcodeNotInScope b)

/-- A step runs the decoded instruction (10_state.md R16, 30_encoding.md R81): where the bytes at the next fetch are those
of a well-formed instruction, the step is its meaning at that state and nothing else. That a prefix row is an instruction
here, with a step of its own, is the model's choice (notes/assumptions/1.md): R16 and R81 read the prefixes with the
opcode. -/
def Obligations.StepRunsDecodedInstruction : Prop :=
  ∀ (s : State) (i : Instr), i.wf s.operandSize = true → s.FetchesBytes (encode i) → step s = exec i s

/-- An instruction with its prefixes runs as one: from its first byte, one step for each prefix byte and one for the
opcode come to the meaning of the instruction at the state that has the prefixes recorded and is otherwise the same
(30_encoding.md R74, R81; notes/assumptions/1.md: that a prefix byte takes a step is the model's choice). -/
def Obligations.PrefixedInstructionRunsWhole : Prop :=
  ∀ (s : State) (pre : List Byte) (i : Instr),
    s.prefixes = Prefixes.none → (∀ b ∈ pre, b ∈ prefixBytes) → i.isPrefix = false → pre.length ≤ 14 →
    i.wf ((recordOf pre).operandSize s.cfg.defaultSize) = true → s.FetchesBytes (pre ++ encode i) →
    Host.Core.run Sys2Proof.core (pre.length + 1) s = exec i (s.setPrefixes (recordOf pre))

/-- What is outside the spec is refused by name, neither a fault nor a no-op (30_encoding.md R78), whatever the prefixes
before it; and so are the prefix combinations of R77 marked "refuse", on an instruction that is not too long. That the
length comes before these refusals, and which name two of them together give, is the model's choice
(notes/assumptions/17.md, 25.md). -/
def Obligations.OutOfScopeBytesRefused : Prop :=
  (∀ (s : State) (b : Byte), s.FetchesBytes [b] → (∀ i : Instr, (encode i).head? ≠ some b) → b ∉ prefixBytes →
      step s = .refused (.opcodeNotInScope b)) ∧
    ∀ (s : State) (i : Instr), i.isPrefix = false → s.prefixes.count + i.opLength ≤ 15 →
      (s.prefixes.lock = true → exec i s = .refused .lockPrefix) ∧
        (s.prefixes.lock = false → s.prefixes.repne = true → exec i s = .refused .repnePrefix) ∧
        (Repeated s → i.isString = false → exec i s = .refused .repOnNonString)

/-- "An instruction longer than 15 bytes is not executed (it raises an exception)" (30_encoding.md R74); that the exception
is a fault that ends the run is the model's choice (notes/assumptions/17.md). -/
def Obligations.LongInstructionNotExecuted : Prop :=
  ∀ (s : State) (i : Instr),
    (i.isPrefix = false → 15 < s.prefixes.count + i.opLength → exec i s = .fault .instructionTooLong) ∧
      (i.isPrefix = true → 15 < s.prefixes.count + 2 → exec i s = .fault .instructionTooLong)

/-- The run ends at the end address given with the launch, and a fetch outside the program text is refused, be it of the
opcode or of the immediate byte of `E4` to `E7` (10_state.md R16, 70_reset_and_hazards.md R195: "our choice", D24, D32;
notes/assumptions/16.md). That the second is so even where the immediate byte would be the sixteenth is the model's choice
(notes/assumptions/17.md). -/
def Obligations.FetchStopsOutsideProgram : Prop :=
  (∀ s : State, s.prefixes.count = 0 → s.pc.toNat = s.cfg.textEnd → step s = .refused .endOfProgram) ∧
    (∀ s : State, s.inText s.fetchOffset = false → ¬ (s.prefixes.count = 0 ∧ s.pc.toNat = s.cfg.textEnd) →
      step s = .refused .outsideProgram) ∧
    ∀ (s : State) (b : Byte), s.FetchesBytes [b] → 0xE4 ≤ b.toNat → b.toNat ≤ 0xE7 →
      s.inText (s.fetchOffset + 1) = false → step s = .refused .outsideProgram

/-- `F2` and `F0` are prefix bytes without a row: consumed, recorded and counted like the others (30_encoding.md R74, R81
(1)), and past the fifteenth byte the instruction is too long. That the record is state and that `pc` stays is the model's
choice (notes/assumptions/1.md), and so is the fault (notes/assumptions/17.md). -/
def Obligations.UndefinedPrefixBytesRecord : Prop :=
  ∀ s : State,
    (s.FetchesBytes [0xF2] →
        (s.prefixes.count + 2 ≤ 15 →
          step s = .next { s with prefixes := { s.prefixes with repne := true, count := s.prefixes.count + 1 } }) ∧
          (15 < s.prefixes.count + 2 → step s = .fault .instructionTooLong)) ∧
      (s.FetchesBytes [0xF0] →
        (s.prefixes.count + 2 ≤ 15 →
          step s = .next { s with prefixes := { s.prefixes with lock := true, count := s.prefixes.count + 1 } }) ∧
          (15 < s.prefixes.count + 2 → step s = .fault .instructionTooLong))

/-- The nine prefix rows: each completes, records itself and changes nothing else (30_encoding.md R72, R73, R81 (1);
41_block_io.md R129). That the record is state and `pc` stays is the model's choice (notes/assumptions/1.md). -/
def Obligations.PrefixRowsRecord : Prop :=
  ∀ s : State, s.prefixes.count + 2 ≤ 15 →
    exec .rep s = .next { s with prefixes := { s.prefixes with rep := true, count := s.prefixes.count + 1 } } ∧
      exec .operandSize s =
        .next { s with prefixes := { s.prefixes with opToggle := true, count := s.prefixes.count + 1 } } ∧
      exec .addressSize s =
        .next { s with prefixes := { s.prefixes with adToggle := true, count := s.prefixes.count + 1 } } ∧
      exec .segEs s = .next { s with prefixes := { s.prefixes with seg := some .es, count := s.prefixes.count + 1 } } ∧
      exec .segCs s = .next { s with prefixes := { s.prefixes with seg := some .cs, count := s.prefixes.count + 1 } } ∧
      exec .segSs s = .next { s with prefixes := { s.prefixes with seg := some .ss, count := s.prefixes.count + 1 } } ∧
      exec .segDs s = .next { s with prefixes := { s.prefixes with seg := some .ds, count := s.prefixes.count + 1 } } ∧
      exec .segFs s = .next { s with prefixes := { s.prefixes with seg := some .fs, count := s.prefixes.count + 1 } } ∧
      exec .segGs s = .next { s with prefixes := { s.prefixes with seg := some .gs, count := s.prefixes.count + 1 } }

/-! ### Register I/O -/

/-- `IN` from an immediate port (40_register_io.md R101, R102, R103): the accumulator at the width gets what the port
supplies, its other bits and everything else are unchanged; the check denying is the one exception. -/
def Obligations.InFromImmediatePort : Prop :=
  ∀ ib : Byte, InRule (.inAlImm ib) .byte (fun _ => ib.setWidth 16) none [0xE4, ib] ∧
    InRule (.inAxImm ib) .word (fun _ => ib.setWidth 16) (some .s16) [0xE5, ib] ∧
    InRule (.inEaxImm ib) .dword (fun _ => ib.setWidth 16) (some .s32) [0xE5, ib]

/-- `IN` from the port in `DX` (40_register_io.md R104, R105, R106); spans past port 65535 are the subject of
SpanPastTopNeverTransfers. -/
def Obligations.InFromDxPort : Prop :=
  InRule .inAlDx .byte (fun s => s.edx.setWidth 16) none [0xEC] ∧
    InRule .inAxDx .word (fun s => s.edx.setWidth 16) (some .s16) [0xED] ∧
    InRule .inEaxDx .dword (fun s => s.edx.setWidth 16) (some .s32) [0xED]

/-- `OUT` to an immediate port (40_register_io.md R107, R108, R109): one port write of the accumulator at the width,
and no register, flag or byte of memory changes but `pc`. -/
def Obligations.OutToImmediatePort : Prop :=
  ∀ ib : Byte, OutRule (.outImmAl ib) .byte (fun _ => ib.setWidth 16) none [0xE6, ib] ∧
    OutRule (.outImmAx ib) .word (fun _ => ib.setWidth 16) (some .s16) [0xE7, ib] ∧
    OutRule (.outImmEax ib) .dword (fun _ => ib.setWidth 16) (some .s32) [0xE7, ib]

/-- `OUT` to the port in `DX` (40_register_io.md R110, R111, R112); spans past port 65535 are the subject of
SpanPastTopNeverTransfers. -/
def Obligations.OutToDxPort : Prop :=
  OutRule .outDxAl .byte (fun s => s.edx.setWidth 16) none [0xEE] ∧
    OutRule .outDxAx .word (fun s => s.edx.setWidth 16) (some .s16) [0xEF] ∧
    OutRule .outDxEax .dword (fun s => s.edx.setWidth 16) (some .s32) [0xEF]

/-! ### Block I/O -/

/-- `INSB`, `INSW`, `INSD` without `REP` (41_block_io.md R121, R122, R123), with the frame of all of memory, and where
they stop. That the two refusals come before the port read is the model's choice (R128 with D12 and 20_memory.md R60 with
D26 allow it; notes/assumptions/15.md), and so is what a memory-mapped device in the destination sees, one write of the
whole operand, while memory takes no byte at its locations (notes/assumptions/19.md). -/
def Obligations.InsTransfersOneElement : Prop :=
  InsRule .insb .byte none [0x6C] ∧ InsRule .insw .word (some .s16) [0x6D] ∧ InsRule .insd .dword (some .s32) [0x6D]

/-- `OUTSB`, `OUTSW`, `OUTSD` without `REP` (41_block_io.md R124, R125, R126): the port is written with the bytes at the
old index, no byte of memory changes, the index is stepped; and where they raise or fault. -/
def Obligations.OutsTransfersOneElement : Prop :=
  OutsRule .outsb .byte none [0x6E] ∧ OutsRule .outsw .word (some .s16) [0x6F] ∧
    OutsRule .outsd .dword (some .s32) [0x6F]

/-- `OUTS` from an operand that a memory-mapped device is in: the device answers for its bytes, as a port does (20_memory.md
R53), memory for the others, and the device sees the read before the port sees the write. One event for the whole operand
is the model's choice (notes/assumptions/19.md). -/
def Obligations.OutsReadsMappedDevice : Prop :=
  ∀ (s : State) (i : Instr) (w : Width) (as : List Nat), outsWidth i = some w → s.prefixes.count + 1 ≤ 15 →
    Unrepeated s → s.ioCheck (s.edx.setWidth 16) w = .pass →
    (s.edx.setWidth 16).toNat + bytesOf w - 1 ≤ 65535 → s.outsLocations w = some as →
    (∃ a ∈ as, s.isDevice a = true) →
    ∃ v : Word, v &&& maskOf w = v ∧
      (∀ k a, as[k]? = some a → v.extractLsb' (8 * k) 8 =
        if s.isDevice a = true then s.nextAnswer.extractLsb' (8 * k) 8 else Memory.read s.mem a) ∧
      exec i s = .next { advanced s 1 with
        esi := indexAfter s w s.esi
        events := s.events ++ [.deviceRead as v, .portWrite (s.edx.setWidth 16) w v]
        inputs := s.inputs.tail
        draws := s.draws + 1 }

/-- The segment of the memory operand (41_block_io.md R129): `ES` for `INS` whatever the override; for `OUTS` `DS`, or
the override; at the index at the address size. Where the segment has that offset is for `Seg` to say (20_memory.md R53;
notes/assumptions/8.md): SegDecidesOperandLocations. -/
def Obligations.BlockOperandSegment : Prop :=
  ∀ (s : State) (w : Width),
    let at_ (r : SegName) (index : Word) (write : Bool) :=
      s.segLocations s.addressSize r (index &&& sizeMask s.addressSize) w write
    (∀ o, (s.setPrefixes { s.prefixes with seg := o }).insLocations w = at_ .es s.edi true) ∧
      (s.setPrefixes { s.prefixes with seg := none }).outsLocations w = at_ .ds s.esi false ∧
      ∀ r, (s.setPrefixes { s.prefixes with seg := some r }).outsLocations w = at_ r s.esi false

/-- `Seg` decides where an operand lies, or that it faults (20_memory.md R53, D9). How is the model's choice
(notes/assumptions/8.md). DESIGN CHOICE: `Seg` is a list of clauses, of which the first that covers the operand decides;
what it gives counts only if it is as many byte locations as the operand has bytes, no two the same, consecutive or not
(R53 says "consecutive", D9 does not), and all below 2^32 (notes/assumptions/6.md), and is the fault otherwise. PRESUMED:
an operand without a clause is at the segment's base plus the offset, where its right, its limit and the address space
allow it. -/
def Obligations.SegDecidesOperandLocations : Prop :=
  ∀ (s : State) (size : SizeAttr) (r : SegName) (off : Word) (w : Width) (write : Bool),
    let isLocations (as : List Nat) := as.length = bytesOf w ∧ as.Nodup ∧ ∀ a ∈ as, a < 2 ^ 32
    (∀ as, s.segLocations size r off w write = some as → isLocations as) ∧
      (s.cfg.segRules = [] → ∀ as, s.segLocations size r off w write = some as ↔
        (if write then (s.segment r).writable else (s.segment r).readable) = true ∧
          off.toNat + bytesOf w - 1 ≤ (s.segment r).limit.toNat ∧
          as = (List.range (bytesOf w)).map (fun k => (s.segment r).base.toNat + off.toNat + k) ∧
          (s.segment r).base.toNat + off.toNat + bytesOf w ≤ 2 ^ 32) ∧
      ∀ q rest, s.cfg.segRules = q :: rest →
        let covers := q.seg = r ∧ q.address = size ∧ q.width = w ∧ q.write = write ∧ q.first ≤ off ∧ off ≤ q.last
        (covers → ∀ as, s.segLocations size r off w write = some as ↔
            (∃ ls, q.locations = some ls ∧ as = ls.map fun a => a + (off.toNat - q.first.toNat)) ∧ isLocations as) ∧
          (¬ covers → s.segLocations size r off w write =
            ({ s with cfg := { s.cfg with segRules := rest } } : State).segLocations size r off w write)

/-- `Seg` is any function the model is given (00_scope.md R3; 20_memory.md R53, D9): for every function from address
size, segment, offset, width and kind to locations or a fault there are clauses that give exactly it, whatever the segment
registers hold. -/
def Obligations.EverySegIsExpressible : Prop :=
  ∀ f : SizeAttr → SegName → Word → Width → Bool → Option (List Nat),
    (∀ size r off w write as, f size r off w write = some as →
      as.length = bytesOf w ∧ as.Nodup ∧ ∀ a ∈ as, a < 2 ^ 32) →
    ∃ rules : List SegRule, ∀ s : State, s.cfg.segRules = rules →
      ∀ size r off w write, s.segLocations size r off w write = f size r off w write

/-- `REP` with a zero count: nothing but `pc`, and no protection check (41_block_io.md R127). -/
def Obligations.RepZeroCountOnlyAdvances : Prop :=
  ∀ (s : State) (i : Instr), i.isString = true → Repeated s → s.prefixes.count + 1 ≤ 15 → countOf s = 0 →
    exec i s = .next (advanced s 1)

/-- One step of a `REP`-prefixed instruction with a count (41_block_io.md R127): the body of the unprefixed instruction
but for its last line, the count less one, and `pc` past the instruction when the block is finished, unchanged
otherwise; where the body stops, so does the step, and nothing is changed. -/
def Obligations.RepStepIsOneElement : Prop :=
  ∀ (s : State) (i : Instr), i.isString = true → s.prefixes.rep = true → countOf s ≠ 0 →
    match exec i (s.setPrefixes { s.prefixes with rep := false }) with
    | .next t =>
      exec i s = .next { t with
        ecx := merged (sizeMask s.addressSize) s.ecx (s.ecx - 1)
        pc := if countOf s = 1 then s.pc + BitVec.ofNat 32 (s.prefixes.count + 1) else s.pc }
    | .fault e => exec i s = .fault e
    | .refused e => exec i s = .refused e

/-- A whole `REP OUTS` block (41_block_io.md R127, by general knowledge there): `n` elements from the index up or down,
each read from memory where `Seg` has it (notes/assumptions/8.md) and written to port `DX`, in order; it ends with the
count 0, the index past the block and `pc` past the instruction, memory and every other register unchanged. The first
element's check holds for all. A step is one prefix byte or one element, and each element reads the prefixes again
(notes/assumptions/1.md: the model's choice), which makes `(pre.length + 1) * n` steps. -/
def Obligations.RepOutsWritesBlock : Prop :=
  ∀ (s : State) (pre : List Byte) (i : Instr) (w : Width) (n : Nat) (locs : Nat → List Nat),
    outsWidth i = some w → RepBlockAt s pre i n →
    s.ioCheck (s.edx.setWidth 16) w = .pass → (s.edx.setWidth 16).toNat + bytesOf w - 1 ≤ 65535 →
    (∀ k < n, (atElement s pre w k).outsLocations w = some (locs k) ∧ ∀ a ∈ locs k, s.isDevice a = false) →
    let mask := sizeMask ((recordOf pre).addressSize s.cfg.defaultSize)
    Host.Core.run Sys2Proof.core ((pre.length + 1) * n) s = .next { s with
      esi := merged mask s.esi (stepped s.flags.direction s.esi n (bytesOf w))
      ecx := merged mask s.ecx 0
      pc := s.pc + BitVec.ofNat 32 (pre.length + 1)
      events := s.events ++ (List.range n).map fun k =>
        .portWrite (s.edx.setWidth 16) w (littleEndian s.mem (locs k)) }

/-- A whole `REP INS` block, up or down, in every mode in which memory has no say in the check (41_block_io.md R127, by
general knowledge there): the port's next `n` values stand in memory where `Seg` has the elements
(notes/assumptions/8.md), as long as no two of them overlap, every other byte unchanged. A step is one prefix byte or one
element, and each element reads the prefixes again (notes/assumptions/1.md: the model's choice), which makes
`(pre.length + 1) * n` steps. -/
def Obligations.RepInsFillsBlock : Prop :=
  ∀ (s : State) (pre : List Byte) (i : Instr) (w : Width) (n : Nat) (locs : Nat → List Nat),
    insWidth i = some w → RepBlockAt s pre i n → Memory.wf s.mem → ¬ mapDecides s →
    (s.edx.setWidth 16).toNat + bytesOf w - 1 ≤ 65535 →
    (∀ k < n, (atElement s pre w k).insLocations w = some (locs k) ∧ s.overlapsText (locs k) = false ∧
      ∀ a ∈ locs k, s.isDevice a = false) →
    (∀ j k, j < k → k < n → (locs j).Disjoint (locs k)) →
    let mask := sizeMask ((recordOf pre).addressSize s.cfg.defaultSize)
    ∃ t, Host.Core.run Sys2Proof.core ((pre.length + 1) * n) s = .next t ∧
      t = { s with
            edi := merged mask s.edi (stepped s.flags.direction s.edi n (bytesOf w))
            ecx := merged mask s.ecx 0
            pc := s.pc + BitVec.ofNat 32 (pre.length + 1)
            mem := t.mem
            events := s.events ++ (List.range n).map fun k =>
              .portRead (s.edx.setWidth 16) w (answerAfter s k &&& maskOf w)
            inputs := s.inputs.drop n
            draws := s.draws + n } ∧
      (∀ k < n, ∀ j a, (locs k)[j]? = some a → Memory.read t.mem a = (answerAfter s k).extractLsb' (8 * j) 8) ∧
      ∀ x, (∀ k < n, x ∉ locs k) → Memory.read t.mem x = Memory.read s.mem x

/-! ### The IOPL-sensitive flag instructions -/

/-- `CLI` and `STI` (42_flag_instructions.md R151, R152): IF and no other flag, in real mode or with `CPL ≤ IOPL`;
otherwise the general protection exception. In virtual 8086 mode CPL is 3. -/
def Obligations.SensitiveFlagInstructions : Prop :=
  EncodedAs .cli none [0xFA] ∧ EncodedAs .sti none [0xFB] ∧
    ∀ s : State, s.prefixes.count + 1 ≤ 15 → Unrepeated s →
    let cpl : BitVec 2 := if s.mode = .virtual8086 then 3 else s.cpl
    (s.mode = .realMode ∨ cpl ≤ s.flags.iopl →
        exec .cli s = .next { advanced s 1 with flags := { s.flags with interruptEnable := false } } ∧
          exec .sti s = .next { advanced s 1 with flags := { s.flags with interruptEnable := true } }) ∧
      (s.mode ≠ .realMode ∧ s.flags.iopl < cpl →
        exec .cli s = .fault (.generalProtection .cli) ∧ exec .sti s = .fault (.generalProtection .sti))

/-- `POPF` and `POPFD` (42_flag_instructions.md R153): IOPL only in real mode or at level 0, IF only in real mode or with
`CPL ≤ IOPL`, DF always, never an exception on account of IOPL; refused in virtual 8086 mode (D21). The image is the
environment's next answer, the stack pointer left is a free value (notes/assumptions/13.md: the model's choice). -/
def Obligations.PopfFiltersFlags : Prop :=
  EncodedAs .popf (some .s16) [0x9D] ∧ EncodedAs .popfd (some .s32) [0x9D] ∧
    ∀ (s : State) (i : Instr), i = .popf ∨ i = .popfd → s.prefixes.count + 1 ≤ 15 → Unrepeated s →
    (s.mode ≠ .virtual8086 →
        exec i s = .next { advanced s 1 with
          flags := popped s s.nextAnswer
          esp := Config.stackPointerAfterPop s.draws
          inputs := s.inputs.tail
          draws := s.draws + 1 }) ∧
      (s.mode = .virtual8086 → exec i s = .refused .popfInVirtual8086)

/-! ### The I/O protection check -/

/-- Real mode has no protection (60_exceptions.md R161): the check passes whatever memory holds, so that the TSS is not
read, and `CLI` and `STI` execute. -/
def Obligations.RealModeUnprotected : Prop :=
  ∀ s : State, s.mode = .realMode →
    (∀ (m : Memory) (p : Port) (w : Width), (s.setMem m).ioCheck p w = .pass) ∧
      (s.prefixes.count + 1 ≤ 15 → Unrepeated s →
        (∃ t, exec .cli s = .next t) ∧ ∃ t, exec .sti s = .next t)

/-- The comparison `CPL ≤ IOPL` in protected mode (60_exceptions.md R162, R164; 42_flag_instructions.md R151): where it
holds, the check passes without a look at the map, and `CLI` and `STI` execute; where it does not, they are the general
protection fault, and the map decides the transfers (CheckDeniesExactly). With IOPL 3 every level passes, with IOPL 0 only
level 0. -/
def Obligations.IoplAdmitsInProtectedMode : Prop :=
  ∀ s : State, s.mode = .protectedMode → s.prefixes.count + 1 ≤ 15 → Unrepeated s →
    (s.cpl ≤ s.flags.iopl →
        (∀ (m : Memory) (p : Port) (w : Width), (s.setMem m).ioCheck p w = .pass) ∧
          (∃ t, exec .cli s = .next t) ∧ ∃ t, exec .sti s = .next t) ∧
      (s.flags.iopl < s.cpl →
        exec .cli s = .fault (.generalProtection .cli) ∧ exec .sti s = .fault (.generalProtection .sti)) ∧
      (s.flags.iopl = 3 → (∃ t, exec .cli s = .next t) ∧ ∃ t, exec .sti s = .next t) ∧
      (s.flags.iopl = 0 → s.cpl ≠ 0 →
        exec .cli s = .fault (.generalProtection .cli) ∧ exec .sti s = .fault (.generalProtection .sti))

/-- When the check denies, exactly (60_exceptions.md R164): the map decides, the launch is one it can be consulted in,
and the TSS has no map, or with `IOPB_FETCH_BYTES = 2` the byte after the first tested one is beyond the limit, or some
port of the span is beyond the map or has its bit set. -/
def Obligations.CheckDeniesExactly : Prop :=
  ∀ (s : State) (p : Port) (w : Width),
    s.ioCheck p w = .deny ↔
      mapDecides s ∧ tssUsable s ∧
        (s.tssLimit.toNat ≤ mapBase s ∨
          (s.cfg.iopbFetch = .two ∧ s.tssLimit.toNat < mapBase s + p.toNat / 8 + 1) ∨
          ∃ k < bytesOf w, ¬ inMap s (p.toNat + k) ∨ mapBit s (p.toNat + k) = true)

/-- The bit test (60_exceptions.md R165): with a map that spans the transfer, any set bit signals the exception and no
part of the transfer is performed, for a register transfer and for an element of a block alike; all zero, and with
`IOPB_FETCH_BYTES = 2` the byte after the first tested one inside the TSS (R181), the operation may proceed. -/
def Obligations.MapBitsDecideTransfer : Prop :=
  ∀ (s : State) (p : Port) (w : Width), mapDecides s → tssUsable s → mapBase s < s.tssLimit.toNat →
    (∀ k < bytesOf w, inMap s (p.toNat + k)) →
    let someSet := ∃ k < bytesOf w, mapBit s (p.toNat + k) = true
    let allZero := ∀ k < bytesOf w, mapBit s (p.toNat + k) = false
    (someSet → s.ioCheck p w = .deny) ∧
      (allZero → (s.cfg.iopbFetch = .two → mapBase s + p.toNat / 8 + 1 ≤ s.tssLimit.toNat) → s.ioCheck p w = .pass) ∧
      (s.cfg.iopbFetch = .one → (someSet ↔ s.ioCheck p w = .deny) ∧ (allZero ↔ s.ioCheck p w = .pass)) ∧
      ∀ i : Instr, Attempts i s → transferOf i s = some (p, w) → someSet →
        exec i s = .fault (.generalProtection (.port p w))

/-- Ports beyond the map (60_exceptions.md R166): a span with a port that the map does not reach is denied, and in the
example, where the TSS limit is the map base plus 31, exactly the ports 0 to 255 are mapped. -/
def Obligations.PortsBeyondMapDenied : Prop :=
  ∀ s : State, mapDecides s → tssUsable s → mapBase s < s.tssLimit.toNat →
    (∀ (p : Port) (w : Width) (k : Nat), k < bytesOf w → s.tssLimit.toNat < mapBase s + (p.toNat + k) / 8 →
        s.ioCheck p w = .deny) ∧
      (s.tssLimit.toNat = mapBase s + 31 →
        (∀ a : Nat, inMap s a ↔ a ≤ 255) ∧
          ∀ (p : Port) (w : Width), 255 < p.toNat + bytesOf w - 1 → s.ioCheck p w = .deny)

/-- No map (60_exceptions.md R167): "If I/O map base is greater than or equal to TSS limit", every port is denied at
every width, the equality included. -/
def Obligations.NoMapDeniesEveryPort : Prop :=
  ∀ s : State, mapDecides s → tssUsable s → s.tssLimit.toNat ≤ mapBase s →
    (∀ (p : Port) (w : Width), s.ioCheck p w = .deny) ∧
      ∀ (i : Instr) (p : Port) (w : Width), Attempts i s → transferOf i s = some (p, w) →
        exec i s = .fault (.generalProtection (.port p w))

/-- Virtual 8086 mode (60_exceptions.md R168): the map is consulted whatever IOPL and CPL are, and `CLI` and `STI`
follow the IOPL rule with CPL 3. -/
def Obligations.VirtualModeIgnoresIopl : Prop :=
  ∀ s : State, s.mode = .virtual8086 →
    (∀ (f : Flags) (c : BitVec 2) (p : Port) (w : Width),
        ({ s with flags := f, cpl := c } : State).ioCheck p w = s.ioCheck p w) ∧
      (∀ (p : Port) (w : Width), s.ioCheck p w = .pass →
        ∀ k < bytesOf w, inMap s (p.toNat + k) ∧ mapBit s (p.toNat + k) = false) ∧
      (s.prefixes.count + 1 ≤ 15 → Unrepeated s →
        (s.flags.iopl = 3 → (∃ t, exec .cli s = .next t) ∧ ∃ t, exec .sti s = .next t) ∧
          (s.flags.iopl ≠ 3 → exec .cli s = .fault (.generalProtection .cli) ∧
            exec .sti s = .fault (.generalProtection .sti)))

/-- `IOPB_FETCH_BYTES` (60_exceptions.md R181, D18): where the last byte of the TSS is all ones, both values of the
parameter give every transfer the same verdict. -/
def Obligations.TerminatedMapMakesFetchAgree : Prop :=
  ∀ (s : State) (p : Port) (w : Width),
    Memory.read s.mem (s.tssBase.toNat + s.tssLimit.toNat) = 0xFF →
    ({ s with cfg := { s.cfg with iopbFetch := .one } } : State).ioCheck p w =
      ({ s with cfg := { s.cfg with iopbFetch := .two } } : State).ioCheck p w

/-- In the source's own example with `IOPB_FETCH_BYTES = 2`, "a transfer to ports 248..255 would be denied, not allowed"
(60_exceptions.md R181). -/
def Obligations.FetchTwoDeniesLastMapByte : Prop :=
  ∀ (s : State) (p : Port) (w : Width), mapDecides s → tssUsable s → s.cfg.iopbFetch = .two →
    s.tssLimit.toNat = mapBase s + 31 → 248 ≤ p.toNat → s.ioCheck p w = .deny

/-- A span past port 65535 (20_memory.md R49, D8): denied where the map is consulted, refused where no check denies it.
That the refusal comes before the memory operand of `INS` or `OUTS` is looked at, so that an `OUTS` whose operand `Seg`
forbids is refused too, is the model's choice (notes/assumptions/14.md): 41_block_io.md R125 and R126 put `MemRead` before
`PortWrite`. -/
def Obligations.SpanPastTopNeverTransfers : Prop :=
  ∀ (s : State) (p : Port) (w : Width), 65535 < p.toNat + bytesOf w - 1 →
    (mapDecides s → tssUsable s → s.ioCheck p w = .deny) ∧
      ∀ i : Instr, Attempts i s → transferOf i s = some (p, w) → s.ioCheck p w = .pass →
        exec i s = .refused .portSpanPastTop

/-- Where the map would be consulted and cannot be (60_exceptions.md R164, R182; D16, D29): the TSS is of another kind, has
no I/O map base field, or is not all readable memory, a device window in it included; and an I/O instruction is refused
there by that name. The spec refuses such a launch; that the model refuses the transfer, when it comes to consult the map,
and by these names, is its choice (notes/assumptions/9.md), and so is the end of memory at 2^32 (notes/assumptions/6.md).
-/
def Obligations.UnusableTssRefused : Prop :=
  ∀ (s : State) (p : Port) (w : Width), mapDecides s →
    (s.cfg.tssKind = .older → s.ioCheck p w = .refuse .tssNotI386) ∧
      (s.cfg.tssKind = .i386 → s.tssLimit.toNat < 0x67 → s.ioCheck p w = .refuse .tssTooSmall) ∧
      (s.cfg.tssKind = .i386 → 0x67 ≤ s.tssLimit.toNat → 2 ^ 32 ≤ s.tssBase.toNat + s.tssLimit.toNat →
        s.ioCheck p w = .refuse .tssNotReadable) ∧
      (s.cfg.tssKind = .i386 → 0x67 ≤ s.tssLimit.toNat → s.tssBase.toNat + s.tssLimit.toNat < 2 ^ 32 →
        (∀ x, s.tssBase.toNat + 0x66 ≤ x → x ≤ s.tssBase.toNat + s.tssLimit.toNat → s.isDevice x = true →
          s.ioCheck p w = .refuse .tssNotReadable) ∧
        ((∀ x, s.tssBase.toNat + 0x66 ≤ x → x ≤ s.tssBase.toNat + s.tssLimit.toNat → s.isDevice x = false) →
          tssUsable s)) ∧
      ∀ (i : Instr) (r : Refusal), Attempts i s → transferOf i s = some (p, w) →
        s.ioCheck p w = .refuse r → exec i s = .refused r

/-- The outcome table (60_exceptions.md R183), row by row; "per map" is that the verdict is the map's. That `POPF` takes the
environment's next answer for its image, and is refused in virtual 8086 mode, is the model's choice
(notes/assumptions/13.md); `POPFD` is in PopfFiltersFlags. -/
def Obligations.OutcomeTable : Prop :=
  ∀ s : State, s.prefixes.count + 1 ≤ 15 → Unrepeated s →
    let proceeds := ∀ (p : Port) (w : Width), s.ioCheck p w = .pass
    let perMap := ∀ (p : Port) (w : Width), s.ioCheck p w = s.consultMap p w
    let sensitive := (∃ t, exec .cli s = .next t) ∧ ∃ t, exec .sti s = .next t
    let raises := exec .cli s = .fault (.generalProtection .cli) ∧ exec .sti s = .fault (.generalProtection .sti)
    let popf (newIf newIopl : Prop) := ∃ t, exec .popf s = .next t ∧
      (newIf → t.flags.interruptEnable = s.nextAnswer.getLsbD 9) ∧
      (¬ newIf → t.flags.interruptEnable = s.flags.interruptEnable) ∧
      (newIopl → t.flags.iopl = s.nextAnswer.extractLsb' 12 2) ∧ (¬ newIopl → t.flags.iopl = s.flags.iopl)
    (s.mode = .realMode → proceeds ∧ sensitive ∧ popf True True) ∧
      (s.mode = .protectedMode → s.cpl = 0 → proceeds ∧ sensitive ∧ popf True True) ∧
      (s.mode = .protectedMode → 0 < s.cpl → s.cpl ≤ s.flags.iopl → proceeds ∧ sensitive ∧ popf True False) ∧
      (s.mode = .protectedMode → s.flags.iopl < s.cpl → perMap ∧ raises ∧ popf False False) ∧
      (s.mode = .virtual8086 → s.flags.iopl = 3 →
        perMap ∧ sensitive ∧ exec .popf s = .refused .popfInVirtual8086) ∧
      (s.mode = .virtual8086 → s.flags.iopl < 3 →
        perMap ∧ raises ∧ exec .popf s = .refused .popfInVirtual8086)

/-! ### The whole machine -/

/-- Every step keeps the invariant, from every state that has it. -/
def Obligations.StepKeepsInvariant : Prop := ∀ s t : State, Inv s → step s = .next t → Inv t

/-- The machine right after reset has the invariant. -/
def Obligations.ResetHasInvariant : Prop := Inv State.reset

/-- What reset leaves. The spec gives no reset value (10_state.md R33): these are the model's, notes/assumptions/5.md,
and no program text is given, notes/assumptions/16.md. -/
def Obligations.ResetLeavesRealMode : Prop :=
  State.reset.mode = .realMode ∧ State.reset.flags = { direction := false, interruptEnable := false, iopl := 0 } ∧
    State.reset.cs.base.toNat + State.reset.pc.toNat = 2 ^ 32 - 16 ∧ State.reset.mem = [] ∧
    State.reset.prefixes = Prefixes.none ∧ step State.reset = .refused .outsideProgram

/-- No step changes what the spec has no instruction in scope write: the mode, CPL, the segment registers, the place and
limit of the TSS (10_state.md R22 to R25), the parameters, `EDX`, `EBX` and `EBP` (R11, R15). It does not speak of IOPL and
the permission map (60_exceptions.md R160): `POPF` writes the one, an `INS` into the TSS the other. -/
def Obligations.StepKeepsProtectionState : Prop :=
  ∀ s t : State, step s = .next t →
    t.mode = s.mode ∧ t.cpl = s.cpl ∧ t.es = s.es ∧ t.cs = s.cs ∧ t.ss = s.ss ∧ t.ds = s.ds ∧ t.fs = s.fs ∧
      t.gs = s.gs ∧ t.tssBase = s.tssBase ∧ t.tssLimit = s.tssLimit ∧ t.cfg = s.cfg ∧ t.edx = s.edx ∧
      t.ebx = s.ebx ∧ t.ebp = s.ebp

/-- Each register changes only by the instructions the spec lists for it (10_state.md R10, R12 to R14, R17 to R20;
41_block_io.md R131): `EAX` by `IN`, `ESI` by `OUTS`, `EDI` by `INS`, `ECX` by a repeated string instruction, `ESP` by
`POPF`, the flags by `CLI`, `STI` and `POPF`, of which only `POPF` touches DF and IOPL. -/
def Obligations.RegistersChangeOnlyByTheirInstructions : Prop :=
  ∀ (i : Instr) (s t : State), exec i s = .next t →
    (t.eax ≠ s.eax → isIn i = true) ∧ (t.esi ≠ s.esi → outsWidth i ≠ none) ∧ (t.edi ≠ s.edi → insWidth i ≠ none) ∧
      (t.ecx ≠ s.ecx → i.isString = true ∧ s.prefixes.rep = true) ∧ (t.esp ≠ s.esp → i = .popf ∨ i = .popfd) ∧
      (t.flags ≠ s.flags → i = .cli ∨ i = .sti ∨ i = .popf ∨ i = .popfd) ∧
      (t.flags.direction ≠ s.flags.direction ∨ t.flags.iopl ≠ s.flags.iopl → i = .popf ∨ i = .popfd)

/-- "No procedure may alter IOPL ... unless the procedure is executing at privilege level 0"
(42_flag_instructions.md R153 (a)): outside real mode, no step changes IOPL at another level; in virtual 8086 mode the
level is 3 (10_state.md R22). -/
def Obligations.IoplChangesOnlyAtLevelZero : Prop :=
  ∀ s t : State, step s = .next t → s.mode ≠ .realMode → s.currentCpl ≠ 0 → t.flags.iopl = s.flags.iopl

/-- "A procedure may alter IF ... only when executing at a level that is at least as privileged as IOPL"
(42_flag_instructions.md R151 to R153): outside real mode, no step with CPL > IOPL changes IF. -/
def Obligations.IfChangesOnlyWithinIopl : Prop :=
  ∀ s t : State, step s = .next t → s.mode ≠ .realMode → s.flags.iopl < s.currentCpl →
    t.flags.interruptEnable = s.flags.interruptEnable

/-- The general protection exception is signalled in exactly the cases of 60_exceptions.md R169, by an instruction that
gets as far as its checks: one that is not too long (R74) and has no prefix that R77 refuses, in this order the model's
choice (notes/assumptions/17.md, 25.md), and that is not repeated zero times, where no check is made (41_block_io.md R127;
notes/assumptions/26.md). -/
def Obligations.GeneralProtectionExactly : Prop :=
  ∀ (i : Instr) (s : State) (c : GpCause),
    exec i s = .fault (.generalProtection c) ↔
      Attempts i s ∧
        ((sensitiveCause i = some c ∧ s.mode ≠ .realMode ∧ s.flags.iopl < s.currentCpl) ∨
          ∃ p w, transferOf i s = some (p, w) ∧ c = .port p w ∧ s.ioCheck p w = .deny)

/-- Isolation of the ports (60_exceptions.md R160 to R168, R181): the events of a step are appended to those before it, at most
two, and every port they reach is one the code now running is permitted. -/
def Obligations.PortEventsOnlyPermitted : Prop :=
  ∀ s t : State, step s = .next t →
    ∃ es : List Event, t.events = s.events ++ es ∧ es.length ≤ 2 ∧
      ∀ (p : Port) (w : Width) (v : Word), .portRead p w v ∈ es ∨ .portWrite p w v ∈ es →
        permitted s p w ∧ p.toNat + bytesOf w - 1 ≤ 65535

/-- Memory changes only by `INS`, and only in its destination (20_memory.md R52; 41_block_io.md R121 to R123). That no
byte of memory changes at a device's locations in the destination is the model's choice (notes/assumptions/19.md,
unsafe). -/
def Obligations.MemoryChangesOnlyByIns : Prop :=
  ∀ (i : Instr) (s t : State) (x : Nat), exec i s = .next t → Memory.read t.mem x ≠ Memory.read s.mem x →
    ∃ w as, insWidth i = some w ∧ s.insLocations w = some as ∧ x ∈ as ∧ s.isDevice x = false

/-- No step changes the program text or its place (20_memory.md R60, D26): no run rewrites its own code. -/
def Obligations.ProgramTextNeverChanges : Prop :=
  ∀ s t : State, step s = .next t →
    t.cs.base = s.cs.base ∧ t.cfg.textStart = s.cfg.textStart ∧ t.cfg.textEnd = s.cfg.textEnd ∧
      ∀ o, s.cfg.textStart ≤ o → o < s.cfg.textEnd →
        Memory.read t.mem (s.cs.base.toNat + o) = Memory.read s.mem (s.cs.base.toNat + o)

/-- `pc` never leaves the range the program was given (10_state.md R16), its end included. -/
def Obligations.PcStaysInProgram : Prop :=
  ∀ s t : State, step s = .next t → s.cfg.textStart ≤ s.pc.toNat → s.pc.toNat ≤ s.cfg.textEnd →
    t.cfg.textStart ≤ t.pc.toNat ∧ t.pc.toNat ≤ t.cfg.textEnd
end

