-- ==== Sys2Proof/Laws/Decode.lean ====
section
/-! SUPPORT. What the two opcode tables of the decoder answer. -/

namespace Sys2Proof

theorem decodeOpcodeIb_some {sz : SizeAttr} {op : Nat} {mk : Byte → Instr} (h : decodeOpcodeIb sz op = some mk)
    (ib : Byte) : (mk ib).wf sz = true ∧ encode (mk ib) = [BitVec.ofNat 8 op, ib] := by
  unfold decodeOpcodeIb at h
  cases sz <;> (split at h <;> cases h <;> first | exact ⟨rfl, rfl⟩ | contradiction)

theorem decodeOpcode_some {sz : SizeAttr} {op : Nat} {i : Instr} (h : decodeOpcode sz op = some i) :
    i.wf sz = true ∧ encode i = [BitVec.ofNat 8 op] := by
  unfold decodeOpcode at h
  cases sz <;> (split at h <;> cases h <;> first | exact ⟨rfl, rfl⟩ | contradiction)

theorem encode_ne_nil (i : Instr) : encode i ≠ [] := by cases i <;> exact List.cons_ne_nil _ _

/-- Every prefix row exists at both operand sizes and is one byte. -/
theorem wf_of_isPrefix {i : Instr} (h : i.isPrefix = true) (sz : SizeAttr) : i.wf sz = true := by
  cases i <;> simp only [Instr.isPrefix, Bool.false_eq_true] at h <;> rfl

theorem opLength_of_isPrefix {i : Instr} (h : i.isPrefix = true) : i.opLength = 1 := by
  cases i <;> simp only [Instr.isPrefix, Bool.false_eq_true] at h <;> rfl

/-- Every prefix row adds one byte to the record. -/
theorem Prefixes.note_count {i : Instr} (h : i.isPrefix = true) (p : Prefixes) : (p.note i).count = p.count + 1 := by
  cases i <;> simp only [Instr.isPrefix, Bool.false_eq_true] at h <;> rfl

end Sys2Proof
end

