-- ==== Sys2Proof/Laws/Memory.lean ====
section
/-! SUPPORT. Memory: a read after a write, and the canonical form kept by every operation. -/

namespace Sys2Proof.Machine

theorem Memory.read_cell_same (a : Nat) (b : Byte) (rest : Memory) (h : ∀ c ∈ rest, a < c.1) :
    Memory.read (Memory.cell a b rest) a = b := by
  have absent : ∀ r : Memory, (∀ c ∈ r, a < c.1) → Memory.read r a = Memory.unlisted := by
    intro r
    induction r with
    | nil => intro _; rfl
    | cons c cs ih =>
      intro hr
      have hc := hr c (List.mem_cons_self ..)
      rw [Memory.read, if_neg (by omega)]
      exact ih fun d hd => hr d (List.mem_cons_of_mem _ hd)
  unfold Memory.cell
  split
  · rename_i hb; rw [hb, absent rest h]
  · simp [Memory.read]

theorem Memory.read_cell_other (a x : Nat) (b : Byte) (rest : Memory) (h : x ≠ a) :
    Memory.read (Memory.cell a b rest) x = Memory.read rest x := by
  unfold Memory.cell
  split
  · rfl
  · rw [Memory.read, if_neg h]

/-- The entries of a written memory are the written one and entries it had. -/
theorem Memory.mem_write {m : Memory} {a : Nat} {b : Byte} {c : Host.Cell} (h : c ∈ Memory.write m a b) :
    (c = (a, b) ∧ b ≠ Memory.unlisted) ∨ c ∈ m := by
  induction m with
  | nil =>
    unfold Memory.write Memory.cell at h
    split at h <;> simp_all
  | cons d ds ih =>
    obtain ⟨a', b'⟩ := d
    unfold Memory.write at h
    split at h
    · unfold Memory.cell at h
      split at h <;> simp_all
    · split at h
      · unfold Memory.cell at h
        split at h
        · exact .inr (List.mem_cons_of_mem _ h)
        · rcases List.mem_cons.1 h with h | h
          · left; simp_all
          · exact .inr (List.mem_cons_of_mem _ h)
      · rcases List.mem_cons.1 h with h | h
        · exact .inr (h ▸ List.mem_cons_self ..)
        · rcases ih h with h | h
          · exact .inl h
          · exact .inr (List.mem_cons_of_mem _ h)

/-- Every write keeps the canonical form. -/
theorem Memory.write_wf {m : Memory} (h : Memory.wf m) (a : Nat) (b : Byte) : Memory.wf (Memory.write m a b) := by
  obtain ⟨hs, hz⟩ := h
  refine ⟨?_, fun c hc => ?_⟩
  · induction m with
    | nil => unfold Memory.write Memory.cell; split <;> simp
    | cons d ds ih =>
      obtain ⟨a', b'⟩ := d
      rw [List.pairwise_cons] at hs
      have cellSorted : ∀ r : Memory, r.Pairwise (fun c d => c.1 < d.1) → (∀ c ∈ r, a < c.1) →
          (Memory.cell a b r).Pairwise (fun c d => c.1 < d.1) := by
        intro r hr ha
        unfold Memory.cell
        split
        · exact hr
        · exact List.pairwise_cons.2 ⟨ha, hr⟩
      unfold Memory.write
      split
      · refine cellSorted _ (List.pairwise_cons.2 hs) fun c hc => ?_
        rcases List.mem_cons.1 hc with rfl | hc
        · assumption
        · have := hs.1 c hc; simp only at this; omega
      · split
        · refine cellSorted _ hs.2 fun c hc => ?_
          have := hs.1 c hc; simp only at this; omega
        · refine List.pairwise_cons.2 ⟨fun c hc => ?_, ih hs.2 fun c hc => hz c (List.mem_cons_of_mem _ hc)⟩
          rcases Memory.mem_write hc with ⟨rfl, _⟩ | hc
          · simp only; omega
          · exact hs.1 c hc
  · rcases Memory.mem_write hc with ⟨rfl, hb⟩ | hc
    · exact hb
    · exact hz c hc

/-- A write inside the address space adds no entry outside it. -/
theorem Memory.write_bounded {m : Memory} (h : Memory.bounded m) {a : Nat} (ha : a < memorySize) (b : Byte) :
    Memory.bounded (Memory.write m a b) := by
  intro c hc
  rcases Memory.mem_write hc with ⟨rfl, _⟩ | hc
  · exact ha
  · exact h c hc

/-- A read after a write to the same place gives the value written. -/
theorem Memory.read_write_same {m : Memory} (h : Memory.wf m) (a : Nat) (b : Byte) :
    Memory.read (Memory.write m a b) a = b := by
  obtain ⟨hs, hz⟩ := h
  induction m with
  | nil => exact Memory.read_cell_same a b [] (by simp)
  | cons d ds ih =>
    obtain ⟨a', b'⟩ := d
    rw [List.pairwise_cons] at hs
    unfold Memory.write
    split
    · refine Memory.read_cell_same a b _ fun c hc => ?_
      rcases List.mem_cons.1 hc with rfl | hc
      · assumption
      · have := hs.1 c hc; simp only at this; omega
    · split
      · refine Memory.read_cell_same a b _ fun c hc => ?_
        have := hs.1 c hc; simp only at this; omega
      · rw [Memory.read, if_neg (by assumption)]
        exact ih hs.2 fun c hc => hz c (List.mem_cons_of_mem _ hc)

/-- A write leaves every other place alone. -/
theorem Memory.read_write_other (m : Memory) {a x : Nat} (b : Byte) (h : x ≠ a) :
    Memory.read (Memory.write m a b) x = Memory.read m x := by
  induction m with
  | nil => exact Memory.read_cell_other a x b [] h
  | cons d ds ih =>
    obtain ⟨a', b'⟩ := d
    unfold Memory.write
    split
    · exact Memory.read_cell_other a x b _ h
    · split
      · rename_i ha
        rw [Memory.read_cell_other a x b _ h, Memory.read, if_neg (by omega)]
      · simp only [Memory.read]
        split
        · rfl
        · exact ih

/-- Every wide store keeps the canonical form. -/
theorem Memory.storeLE_wf (dev : Nat → Bool) {m : Memory} (h : Memory.wf m) (as : List Nat) (v : Word) :
    Memory.wf (Memory.storeLE dev m as v) := by
  induction as generalizing m v with
  | nil => exact h
  | cons a as ih =>
    unfold Memory.storeLE
    split
    · exact ih h _
    · exact ih (Memory.write_wf h _ _) _

theorem Memory.storeLE_bounded (dev : Nat → Bool) {m : Memory} (h : Memory.bounded m) {as : List Nat}
    (ha : ∀ a ∈ as, a < memorySize) (v : Word) : Memory.bounded (Memory.storeLE dev m as v) := by
  induction as generalizing m v with
  | nil => exact h
  | cons a as ih =>
    rw [List.forall_mem_cons] at ha
    unfold Memory.storeLE
    split
    · exact ih h ha.2 _
    · exact ih (Memory.write_bounded h ha.1 _) ha.2 _

/-- A wide store leaves every byte outside its operand alone, and a device's locations too. -/
theorem Memory.read_storeLE_other (dev : Nat → Bool) (m : Memory) {as : List Nat} {x : Nat} (v : Word)
    (h : x ∉ as ∨ dev x = true) : Memory.read (Memory.storeLE dev m as v) x = Memory.read m x := by
  induction as generalizing m v with
  | nil => rfl
  | cons a as ih =>
    unfold Memory.storeLE
    rw [List.mem_cons, not_or] at h
    rw [ih _ _ (h.imp_left And.right)]
    split
    · rfl
    · rename_i hd
      refine Memory.read_write_other _ _ ?_
      rintro rfl
      simp_all

/-- Byte `k` of the value stored is at the `k`-th location (20_memory.md R53). -/
theorem Memory.read_storeLE_inside (dev : Nat → Bool) {m : Memory} (hm : Memory.wf m) {as : List Nat} (hn : as.Nodup)
    {k a : Nat} (v : Word) (hk : as[k]? = some a) (hd : dev a = false) :
    Memory.read (Memory.storeLE dev m as v) a = (v >>> (8 * k)).setWidth 8 := by
  induction as generalizing m v k with
  | nil => simp at hk
  | cons b bs ih =>
    rw [List.nodup_cons] at hn
    unfold Memory.storeLE
    cases k with
    | zero =>
      obtain rfl : b = a := by simpa using hk
      rw [Memory.read_storeLE_other _ _ _ (.inl hn.1), if_neg (by simpa using hd)]
      simpa using Memory.read_write_same hm b _
    | succ k =>
      have hwf : Memory.wf (if dev b = true then m else Memory.write m b (v.setWidth 8)) := by
        split
        · exact hm
        · exact Memory.write_wf hm _ _
      rw [ih hwf hn.2 (v >>> 8) (k := k) (by simpa using hk), ← BitVec.shiftRight_add]
      congr 2; omega

theorem Memory.writeBytes_wf {m : Memory} (h : Memory.wf m) (a : Nat) (bs : List Byte) :
    Memory.wf (Memory.writeBytes m a bs) := by
  induction bs generalizing m a with
  | nil => exact h
  | cons b bs ih => exact ih (Memory.write_wf h a b) _

/-- `Memory.readLE` byte by byte, the lowest location least significant. -/
theorem Memory.readLE_one (m : Memory) (a : Nat) : Memory.readLE m a 1 = (Memory.read m a).setWidth 32 := by
  simp [Memory.readLE]

/-- Memory at reset is in canonical form. -/
theorem State.reset_mem_wf : Memory.wf State.reset.mem ∧ Memory.bounded State.reset.mem := by decide

end Sys2Proof.Machine
end

