-- ==== Sys2Proof/Laws/State.lean ====
section
/-! SUPPORT. What each named update of State does to each field: true by unfolding, for simp. -/

namespace Sys2Proof.Machine

variable (s : State)

/-! ### `State.setEax` -/

@[simp] theorem State.setEax_eax (v : Word) : (s.setEax v).eax = v := rfl
@[simp] theorem State.setEax_ebx (v : Word) : (s.setEax v).ebx = s.ebx := rfl
@[simp] theorem State.setEax_ecx (v : Word) : (s.setEax v).ecx = s.ecx := rfl
@[simp] theorem State.setEax_edx (v : Word) : (s.setEax v).edx = s.edx := rfl
@[simp] theorem State.setEax_esi (v : Word) : (s.setEax v).esi = s.esi := rfl
@[simp] theorem State.setEax_edi (v : Word) : (s.setEax v).edi = s.edi := rfl
@[simp] theorem State.setEax_ebp (v : Word) : (s.setEax v).ebp = s.ebp := rfl
@[simp] theorem State.setEax_esp (v : Word) : (s.setEax v).esp = s.esp := rfl
@[simp] theorem State.setEax_pc (v : Word) : (s.setEax v).pc = s.pc := rfl
@[simp] theorem State.setEax_flags (v : Word) : (s.setEax v).flags = s.flags := rfl
@[simp] theorem State.setEax_mode (v : Word) : (s.setEax v).mode = s.mode := rfl
@[simp] theorem State.setEax_cpl (v : Word) : (s.setEax v).cpl = s.cpl := rfl
@[simp] theorem State.setEax_es (v : Word) : (s.setEax v).es = s.es := rfl
@[simp] theorem State.setEax_cs (v : Word) : (s.setEax v).cs = s.cs := rfl
@[simp] theorem State.setEax_ss (v : Word) : (s.setEax v).ss = s.ss := rfl
@[simp] theorem State.setEax_ds (v : Word) : (s.setEax v).ds = s.ds := rfl
@[simp] theorem State.setEax_fs (v : Word) : (s.setEax v).fs = s.fs := rfl
@[simp] theorem State.setEax_gs (v : Word) : (s.setEax v).gs = s.gs := rfl
@[simp] theorem State.setEax_tssBase (v : Word) : (s.setEax v).tssBase = s.tssBase := rfl
@[simp] theorem State.setEax_tssLimit (v : Word) : (s.setEax v).tssLimit = s.tssLimit := rfl
@[simp] theorem State.setEax_mem (v : Word) : (s.setEax v).mem = s.mem := rfl
@[simp] theorem State.setEax_prefixes (v : Word) : (s.setEax v).prefixes = s.prefixes := rfl
@[simp] theorem State.setEax_cfg (v : Word) : (s.setEax v).cfg = s.cfg := rfl
@[simp] theorem State.setEax_events (v : Word) : (s.setEax v).events = s.events := rfl
@[simp] theorem State.setEax_inputs (v : Word) : (s.setEax v).inputs = s.inputs := rfl
@[simp] theorem State.setEax_draws (v : Word) : (s.setEax v).draws = s.draws := rfl

/-! ### `State.setEcx` -/

@[simp] theorem State.setEcx_eax (v : Word) : (s.setEcx v).eax = s.eax := rfl
@[simp] theorem State.setEcx_ebx (v : Word) : (s.setEcx v).ebx = s.ebx := rfl
@[simp] theorem State.setEcx_ecx (v : Word) : (s.setEcx v).ecx = v := rfl
@[simp] theorem State.setEcx_edx (v : Word) : (s.setEcx v).edx = s.edx := rfl
@[simp] theorem State.setEcx_esi (v : Word) : (s.setEcx v).esi = s.esi := rfl
@[simp] theorem State.setEcx_edi (v : Word) : (s.setEcx v).edi = s.edi := rfl
@[simp] theorem State.setEcx_ebp (v : Word) : (s.setEcx v).ebp = s.ebp := rfl
@[simp] theorem State.setEcx_esp (v : Word) : (s.setEcx v).esp = s.esp := rfl
@[simp] theorem State.setEcx_pc (v : Word) : (s.setEcx v).pc = s.pc := rfl
@[simp] theorem State.setEcx_flags (v : Word) : (s.setEcx v).flags = s.flags := rfl
@[simp] theorem State.setEcx_mode (v : Word) : (s.setEcx v).mode = s.mode := rfl
@[simp] theorem State.setEcx_cpl (v : Word) : (s.setEcx v).cpl = s.cpl := rfl
@[simp] theorem State.setEcx_es (v : Word) : (s.setEcx v).es = s.es := rfl
@[simp] theorem State.setEcx_cs (v : Word) : (s.setEcx v).cs = s.cs := rfl
@[simp] theorem State.setEcx_ss (v : Word) : (s.setEcx v).ss = s.ss := rfl
@[simp] theorem State.setEcx_ds (v : Word) : (s.setEcx v).ds = s.ds := rfl
@[simp] theorem State.setEcx_fs (v : Word) : (s.setEcx v).fs = s.fs := rfl
@[simp] theorem State.setEcx_gs (v : Word) : (s.setEcx v).gs = s.gs := rfl
@[simp] theorem State.setEcx_tssBase (v : Word) : (s.setEcx v).tssBase = s.tssBase := rfl
@[simp] theorem State.setEcx_tssLimit (v : Word) : (s.setEcx v).tssLimit = s.tssLimit := rfl
@[simp] theorem State.setEcx_mem (v : Word) : (s.setEcx v).mem = s.mem := rfl
@[simp] theorem State.setEcx_prefixes (v : Word) : (s.setEcx v).prefixes = s.prefixes := rfl
@[simp] theorem State.setEcx_cfg (v : Word) : (s.setEcx v).cfg = s.cfg := rfl
@[simp] theorem State.setEcx_events (v : Word) : (s.setEcx v).events = s.events := rfl
@[simp] theorem State.setEcx_inputs (v : Word) : (s.setEcx v).inputs = s.inputs := rfl
@[simp] theorem State.setEcx_draws (v : Word) : (s.setEcx v).draws = s.draws := rfl

/-! ### `State.setEsi` -/

@[simp] theorem State.setEsi_eax (v : Word) : (s.setEsi v).eax = s.eax := rfl
@[simp] theorem State.setEsi_ebx (v : Word) : (s.setEsi v).ebx = s.ebx := rfl
@[simp] theorem State.setEsi_ecx (v : Word) : (s.setEsi v).ecx = s.ecx := rfl
@[simp] theorem State.setEsi_edx (v : Word) : (s.setEsi v).edx = s.edx := rfl
@[simp] theorem State.setEsi_esi (v : Word) : (s.setEsi v).esi = v := rfl
@[simp] theorem State.setEsi_edi (v : Word) : (s.setEsi v).edi = s.edi := rfl
@[simp] theorem State.setEsi_ebp (v : Word) : (s.setEsi v).ebp = s.ebp := rfl
@[simp] theorem State.setEsi_esp (v : Word) : (s.setEsi v).esp = s.esp := rfl
@[simp] theorem State.setEsi_pc (v : Word) : (s.setEsi v).pc = s.pc := rfl
@[simp] theorem State.setEsi_flags (v : Word) : (s.setEsi v).flags = s.flags := rfl
@[simp] theorem State.setEsi_mode (v : Word) : (s.setEsi v).mode = s.mode := rfl
@[simp] theorem State.setEsi_cpl (v : Word) : (s.setEsi v).cpl = s.cpl := rfl
@[simp] theorem State.setEsi_es (v : Word) : (s.setEsi v).es = s.es := rfl
@[simp] theorem State.setEsi_cs (v : Word) : (s.setEsi v).cs = s.cs := rfl
@[simp] theorem State.setEsi_ss (v : Word) : (s.setEsi v).ss = s.ss := rfl
@[simp] theorem State.setEsi_ds (v : Word) : (s.setEsi v).ds = s.ds := rfl
@[simp] theorem State.setEsi_fs (v : Word) : (s.setEsi v).fs = s.fs := rfl
@[simp] theorem State.setEsi_gs (v : Word) : (s.setEsi v).gs = s.gs := rfl
@[simp] theorem State.setEsi_tssBase (v : Word) : (s.setEsi v).tssBase = s.tssBase := rfl
@[simp] theorem State.setEsi_tssLimit (v : Word) : (s.setEsi v).tssLimit = s.tssLimit := rfl
@[simp] theorem State.setEsi_mem (v : Word) : (s.setEsi v).mem = s.mem := rfl
@[simp] theorem State.setEsi_prefixes (v : Word) : (s.setEsi v).prefixes = s.prefixes := rfl
@[simp] theorem State.setEsi_cfg (v : Word) : (s.setEsi v).cfg = s.cfg := rfl
@[simp] theorem State.setEsi_events (v : Word) : (s.setEsi v).events = s.events := rfl
@[simp] theorem State.setEsi_inputs (v : Word) : (s.setEsi v).inputs = s.inputs := rfl
@[simp] theorem State.setEsi_draws (v : Word) : (s.setEsi v).draws = s.draws := rfl

/-! ### `State.setEdi` -/

@[simp] theorem State.setEdi_eax (v : Word) : (s.setEdi v).eax = s.eax := rfl
@[simp] theorem State.setEdi_ebx (v : Word) : (s.setEdi v).ebx = s.ebx := rfl
@[simp] theorem State.setEdi_ecx (v : Word) : (s.setEdi v).ecx = s.ecx := rfl
@[simp] theorem State.setEdi_edx (v : Word) : (s.setEdi v).edx = s.edx := rfl
@[simp] theorem State.setEdi_esi (v : Word) : (s.setEdi v).esi = s.esi := rfl
@[simp] theorem State.setEdi_edi (v : Word) : (s.setEdi v).edi = v := rfl
@[simp] theorem State.setEdi_ebp (v : Word) : (s.setEdi v).ebp = s.ebp := rfl
@[simp] theorem State.setEdi_esp (v : Word) : (s.setEdi v).esp = s.esp := rfl
@[simp] theorem State.setEdi_pc (v : Word) : (s.setEdi v).pc = s.pc := rfl
@[simp] theorem State.setEdi_flags (v : Word) : (s.setEdi v).flags = s.flags := rfl
@[simp] theorem State.setEdi_mode (v : Word) : (s.setEdi v).mode = s.mode := rfl
@[simp] theorem State.setEdi_cpl (v : Word) : (s.setEdi v).cpl = s.cpl := rfl
@[simp] theorem State.setEdi_es (v : Word) : (s.setEdi v).es = s.es := rfl
@[simp] theorem State.setEdi_cs (v : Word) : (s.setEdi v).cs = s.cs := rfl
@[simp] theorem State.setEdi_ss (v : Word) : (s.setEdi v).ss = s.ss := rfl
@[simp] theorem State.setEdi_ds (v : Word) : (s.setEdi v).ds = s.ds := rfl
@[simp] theorem State.setEdi_fs (v : Word) : (s.setEdi v).fs = s.fs := rfl
@[simp] theorem State.setEdi_gs (v : Word) : (s.setEdi v).gs = s.gs := rfl
@[simp] theorem State.setEdi_tssBase (v : Word) : (s.setEdi v).tssBase = s.tssBase := rfl
@[simp] theorem State.setEdi_tssLimit (v : Word) : (s.setEdi v).tssLimit = s.tssLimit := rfl
@[simp] theorem State.setEdi_mem (v : Word) : (s.setEdi v).mem = s.mem := rfl
@[simp] theorem State.setEdi_prefixes (v : Word) : (s.setEdi v).prefixes = s.prefixes := rfl
@[simp] theorem State.setEdi_cfg (v : Word) : (s.setEdi v).cfg = s.cfg := rfl
@[simp] theorem State.setEdi_events (v : Word) : (s.setEdi v).events = s.events := rfl
@[simp] theorem State.setEdi_inputs (v : Word) : (s.setEdi v).inputs = s.inputs := rfl
@[simp] theorem State.setEdi_draws (v : Word) : (s.setEdi v).draws = s.draws := rfl

/-! ### `State.setEsp` -/

@[simp] theorem State.setEsp_eax (v : Word) : (s.setEsp v).eax = s.eax := rfl
@[simp] theorem State.setEsp_ebx (v : Word) : (s.setEsp v).ebx = s.ebx := rfl
@[simp] theorem State.setEsp_ecx (v : Word) : (s.setEsp v).ecx = s.ecx := rfl
@[simp] theorem State.setEsp_edx (v : Word) : (s.setEsp v).edx = s.edx := rfl
@[simp] theorem State.setEsp_esi (v : Word) : (s.setEsp v).esi = s.esi := rfl
@[simp] theorem State.setEsp_edi (v : Word) : (s.setEsp v).edi = s.edi := rfl
@[simp] theorem State.setEsp_ebp (v : Word) : (s.setEsp v).ebp = s.ebp := rfl
@[simp] theorem State.setEsp_esp (v : Word) : (s.setEsp v).esp = v := rfl
@[simp] theorem State.setEsp_pc (v : Word) : (s.setEsp v).pc = s.pc := rfl
@[simp] theorem State.setEsp_flags (v : Word) : (s.setEsp v).flags = s.flags := rfl
@[simp] theorem State.setEsp_mode (v : Word) : (s.setEsp v).mode = s.mode := rfl
@[simp] theorem State.setEsp_cpl (v : Word) : (s.setEsp v).cpl = s.cpl := rfl
@[simp] theorem State.setEsp_es (v : Word) : (s.setEsp v).es = s.es := rfl
@[simp] theorem State.setEsp_cs (v : Word) : (s.setEsp v).cs = s.cs := rfl
@[simp] theorem State.setEsp_ss (v : Word) : (s.setEsp v).ss = s.ss := rfl
@[simp] theorem State.setEsp_ds (v : Word) : (s.setEsp v).ds = s.ds := rfl
@[simp] theorem State.setEsp_fs (v : Word) : (s.setEsp v).fs = s.fs := rfl
@[simp] theorem State.setEsp_gs (v : Word) : (s.setEsp v).gs = s.gs := rfl
@[simp] theorem State.setEsp_tssBase (v : Word) : (s.setEsp v).tssBase = s.tssBase := rfl
@[simp] theorem State.setEsp_tssLimit (v : Word) : (s.setEsp v).tssLimit = s.tssLimit := rfl
@[simp] theorem State.setEsp_mem (v : Word) : (s.setEsp v).mem = s.mem := rfl
@[simp] theorem State.setEsp_prefixes (v : Word) : (s.setEsp v).prefixes = s.prefixes := rfl
@[simp] theorem State.setEsp_cfg (v : Word) : (s.setEsp v).cfg = s.cfg := rfl
@[simp] theorem State.setEsp_events (v : Word) : (s.setEsp v).events = s.events := rfl
@[simp] theorem State.setEsp_inputs (v : Word) : (s.setEsp v).inputs = s.inputs := rfl
@[simp] theorem State.setEsp_draws (v : Word) : (s.setEsp v).draws = s.draws := rfl

/-! ### `State.setPc` -/

@[simp] theorem State.setPc_eax (v : Word) : (s.setPc v).eax = s.eax := rfl
@[simp] theorem State.setPc_ebx (v : Word) : (s.setPc v).ebx = s.ebx := rfl
@[simp] theorem State.setPc_ecx (v : Word) : (s.setPc v).ecx = s.ecx := rfl
@[simp] theorem State.setPc_edx (v : Word) : (s.setPc v).edx = s.edx := rfl
@[simp] theorem State.setPc_esi (v : Word) : (s.setPc v).esi = s.esi := rfl
@[simp] theorem State.setPc_edi (v : Word) : (s.setPc v).edi = s.edi := rfl
@[simp] theorem State.setPc_ebp (v : Word) : (s.setPc v).ebp = s.ebp := rfl
@[simp] theorem State.setPc_esp (v : Word) : (s.setPc v).esp = s.esp := rfl
@[simp] theorem State.setPc_pc (v : Word) : (s.setPc v).pc = v := rfl
@[simp] theorem State.setPc_flags (v : Word) : (s.setPc v).flags = s.flags := rfl
@[simp] theorem State.setPc_mode (v : Word) : (s.setPc v).mode = s.mode := rfl
@[simp] theorem State.setPc_cpl (v : Word) : (s.setPc v).cpl = s.cpl := rfl
@[simp] theorem State.setPc_es (v : Word) : (s.setPc v).es = s.es := rfl
@[simp] theorem State.setPc_cs (v : Word) : (s.setPc v).cs = s.cs := rfl
@[simp] theorem State.setPc_ss (v : Word) : (s.setPc v).ss = s.ss := rfl
@[simp] theorem State.setPc_ds (v : Word) : (s.setPc v).ds = s.ds := rfl
@[simp] theorem State.setPc_fs (v : Word) : (s.setPc v).fs = s.fs := rfl
@[simp] theorem State.setPc_gs (v : Word) : (s.setPc v).gs = s.gs := rfl
@[simp] theorem State.setPc_tssBase (v : Word) : (s.setPc v).tssBase = s.tssBase := rfl
@[simp] theorem State.setPc_tssLimit (v : Word) : (s.setPc v).tssLimit = s.tssLimit := rfl
@[simp] theorem State.setPc_mem (v : Word) : (s.setPc v).mem = s.mem := rfl
@[simp] theorem State.setPc_prefixes (v : Word) : (s.setPc v).prefixes = s.prefixes := rfl
@[simp] theorem State.setPc_cfg (v : Word) : (s.setPc v).cfg = s.cfg := rfl
@[simp] theorem State.setPc_events (v : Word) : (s.setPc v).events = s.events := rfl
@[simp] theorem State.setPc_inputs (v : Word) : (s.setPc v).inputs = s.inputs := rfl
@[simp] theorem State.setPc_draws (v : Word) : (s.setPc v).draws = s.draws := rfl

/-! ### `State.setFlags` -/

@[simp] theorem State.setFlags_eax (f : Flags) : (s.setFlags f).eax = s.eax := rfl
@[simp] theorem State.setFlags_ebx (f : Flags) : (s.setFlags f).ebx = s.ebx := rfl
@[simp] theorem State.setFlags_ecx (f : Flags) : (s.setFlags f).ecx = s.ecx := rfl
@[simp] theorem State.setFlags_edx (f : Flags) : (s.setFlags f).edx = s.edx := rfl
@[simp] theorem State.setFlags_esi (f : Flags) : (s.setFlags f).esi = s.esi := rfl
@[simp] theorem State.setFlags_edi (f : Flags) : (s.setFlags f).edi = s.edi := rfl
@[simp] theorem State.setFlags_ebp (f : Flags) : (s.setFlags f).ebp = s.ebp := rfl
@[simp] theorem State.setFlags_esp (f : Flags) : (s.setFlags f).esp = s.esp := rfl
@[simp] theorem State.setFlags_pc (f : Flags) : (s.setFlags f).pc = s.pc := rfl
@[simp] theorem State.setFlags_flags (f : Flags) : (s.setFlags f).flags = f := rfl
@[simp] theorem State.setFlags_mode (f : Flags) : (s.setFlags f).mode = s.mode := rfl
@[simp] theorem State.setFlags_cpl (f : Flags) : (s.setFlags f).cpl = s.cpl := rfl
@[simp] theorem State.setFlags_es (f : Flags) : (s.setFlags f).es = s.es := rfl
@[simp] theorem State.setFlags_cs (f : Flags) : (s.setFlags f).cs = s.cs := rfl
@[simp] theorem State.setFlags_ss (f : Flags) : (s.setFlags f).ss = s.ss := rfl
@[simp] theorem State.setFlags_ds (f : Flags) : (s.setFlags f).ds = s.ds := rfl
@[simp] theorem State.setFlags_fs (f : Flags) : (s.setFlags f).fs = s.fs := rfl
@[simp] theorem State.setFlags_gs (f : Flags) : (s.setFlags f).gs = s.gs := rfl
@[simp] theorem State.setFlags_tssBase (f : Flags) : (s.setFlags f).tssBase = s.tssBase := rfl
@[simp] theorem State.setFlags_tssLimit (f : Flags) : (s.setFlags f).tssLimit = s.tssLimit := rfl
@[simp] theorem State.setFlags_mem (f : Flags) : (s.setFlags f).mem = s.mem := rfl
@[simp] theorem State.setFlags_prefixes (f : Flags) : (s.setFlags f).prefixes = s.prefixes := rfl
@[simp] theorem State.setFlags_cfg (f : Flags) : (s.setFlags f).cfg = s.cfg := rfl
@[simp] theorem State.setFlags_events (f : Flags) : (s.setFlags f).events = s.events := rfl
@[simp] theorem State.setFlags_inputs (f : Flags) : (s.setFlags f).inputs = s.inputs := rfl
@[simp] theorem State.setFlags_draws (f : Flags) : (s.setFlags f).draws = s.draws := rfl

/-! ### `State.setMem` -/

@[simp] theorem State.setMem_eax (m : Memory) : (s.setMem m).eax = s.eax := rfl
@[simp] theorem State.setMem_ebx (m : Memory) : (s.setMem m).ebx = s.ebx := rfl
@[simp] theorem State.setMem_ecx (m : Memory) : (s.setMem m).ecx = s.ecx := rfl
@[simp] theorem State.setMem_edx (m : Memory) : (s.setMem m).edx = s.edx := rfl
@[simp] theorem State.setMem_esi (m : Memory) : (s.setMem m).esi = s.esi := rfl
@[simp] theorem State.setMem_edi (m : Memory) : (s.setMem m).edi = s.edi := rfl
@[simp] theorem State.setMem_ebp (m : Memory) : (s.setMem m).ebp = s.ebp := rfl
@[simp] theorem State.setMem_esp (m : Memory) : (s.setMem m).esp = s.esp := rfl
@[simp] theorem State.setMem_pc (m : Memory) : (s.setMem m).pc = s.pc := rfl
@[simp] theorem State.setMem_flags (m : Memory) : (s.setMem m).flags = s.flags := rfl
@[simp] theorem State.setMem_mode (m : Memory) : (s.setMem m).mode = s.mode := rfl
@[simp] theorem State.setMem_cpl (m : Memory) : (s.setMem m).cpl = s.cpl := rfl
@[simp] theorem State.setMem_es (m : Memory) : (s.setMem m).es = s.es := rfl
@[simp] theorem State.setMem_cs (m : Memory) : (s.setMem m).cs = s.cs := rfl
@[simp] theorem State.setMem_ss (m : Memory) : (s.setMem m).ss = s.ss := rfl
@[simp] theorem State.setMem_ds (m : Memory) : (s.setMem m).ds = s.ds := rfl
@[simp] theorem State.setMem_fs (m : Memory) : (s.setMem m).fs = s.fs := rfl
@[simp] theorem State.setMem_gs (m : Memory) : (s.setMem m).gs = s.gs := rfl
@[simp] theorem State.setMem_tssBase (m : Memory) : (s.setMem m).tssBase = s.tssBase := rfl
@[simp] theorem State.setMem_tssLimit (m : Memory) : (s.setMem m).tssLimit = s.tssLimit := rfl
@[simp] theorem State.setMem_mem (m : Memory) : (s.setMem m).mem = m := rfl
@[simp] theorem State.setMem_prefixes (m : Memory) : (s.setMem m).prefixes = s.prefixes := rfl
@[simp] theorem State.setMem_cfg (m : Memory) : (s.setMem m).cfg = s.cfg := rfl
@[simp] theorem State.setMem_events (m : Memory) : (s.setMem m).events = s.events := rfl
@[simp] theorem State.setMem_inputs (m : Memory) : (s.setMem m).inputs = s.inputs := rfl
@[simp] theorem State.setMem_draws (m : Memory) : (s.setMem m).draws = s.draws := rfl

/-! ### `State.setPrefixes` -/

@[simp] theorem State.setPrefixes_eax (p : Prefixes) : (s.setPrefixes p).eax = s.eax := rfl
@[simp] theorem State.setPrefixes_ebx (p : Prefixes) : (s.setPrefixes p).ebx = s.ebx := rfl
@[simp] theorem State.setPrefixes_ecx (p : Prefixes) : (s.setPrefixes p).ecx = s.ecx := rfl
@[simp] theorem State.setPrefixes_edx (p : Prefixes) : (s.setPrefixes p).edx = s.edx := rfl
@[simp] theorem State.setPrefixes_esi (p : Prefixes) : (s.setPrefixes p).esi = s.esi := rfl
@[simp] theorem State.setPrefixes_edi (p : Prefixes) : (s.setPrefixes p).edi = s.edi := rfl
@[simp] theorem State.setPrefixes_ebp (p : Prefixes) : (s.setPrefixes p).ebp = s.ebp := rfl
@[simp] theorem State.setPrefixes_esp (p : Prefixes) : (s.setPrefixes p).esp = s.esp := rfl
@[simp] theorem State.setPrefixes_pc (p : Prefixes) : (s.setPrefixes p).pc = s.pc := rfl
@[simp] theorem State.setPrefixes_flags (p : Prefixes) : (s.setPrefixes p).flags = s.flags := rfl
@[simp] theorem State.setPrefixes_mode (p : Prefixes) : (s.setPrefixes p).mode = s.mode := rfl
@[simp] theorem State.setPrefixes_cpl (p : Prefixes) : (s.setPrefixes p).cpl = s.cpl := rfl
@[simp] theorem State.setPrefixes_es (p : Prefixes) : (s.setPrefixes p).es = s.es := rfl
@[simp] theorem State.setPrefixes_cs (p : Prefixes) : (s.setPrefixes p).cs = s.cs := rfl
@[simp] theorem State.setPrefixes_ss (p : Prefixes) : (s.setPrefixes p).ss = s.ss := rfl
@[simp] theorem State.setPrefixes_ds (p : Prefixes) : (s.setPrefixes p).ds = s.ds := rfl
@[simp] theorem State.setPrefixes_fs (p : Prefixes) : (s.setPrefixes p).fs = s.fs := rfl
@[simp] theorem State.setPrefixes_gs (p : Prefixes) : (s.setPrefixes p).gs = s.gs := rfl
@[simp] theorem State.setPrefixes_tssBase (p : Prefixes) : (s.setPrefixes p).tssBase = s.tssBase := rfl
@[simp] theorem State.setPrefixes_tssLimit (p : Prefixes) : (s.setPrefixes p).tssLimit = s.tssLimit := rfl
@[simp] theorem State.setPrefixes_mem (p : Prefixes) : (s.setPrefixes p).mem = s.mem := rfl
@[simp] theorem State.setPrefixes_prefixes (p : Prefixes) : (s.setPrefixes p).prefixes = p := rfl
@[simp] theorem State.setPrefixes_cfg (p : Prefixes) : (s.setPrefixes p).cfg = s.cfg := rfl
@[simp] theorem State.setPrefixes_events (p : Prefixes) : (s.setPrefixes p).events = s.events := rfl
@[simp] theorem State.setPrefixes_inputs (p : Prefixes) : (s.setPrefixes p).inputs = s.inputs := rfl
@[simp] theorem State.setPrefixes_draws (p : Prefixes) : (s.setPrefixes p).draws = s.draws := rfl

/-! ### `State.record` -/

@[simp] theorem State.record_eax (e : Event) : (s.record e).eax = s.eax := rfl
@[simp] theorem State.record_ebx (e : Event) : (s.record e).ebx = s.ebx := rfl
@[simp] theorem State.record_ecx (e : Event) : (s.record e).ecx = s.ecx := rfl
@[simp] theorem State.record_edx (e : Event) : (s.record e).edx = s.edx := rfl
@[simp] theorem State.record_esi (e : Event) : (s.record e).esi = s.esi := rfl
@[simp] theorem State.record_edi (e : Event) : (s.record e).edi = s.edi := rfl
@[simp] theorem State.record_ebp (e : Event) : (s.record e).ebp = s.ebp := rfl
@[simp] theorem State.record_esp (e : Event) : (s.record e).esp = s.esp := rfl
@[simp] theorem State.record_pc (e : Event) : (s.record e).pc = s.pc := rfl
@[simp] theorem State.record_flags (e : Event) : (s.record e).flags = s.flags := rfl
@[simp] theorem State.record_mode (e : Event) : (s.record e).mode = s.mode := rfl
@[simp] theorem State.record_cpl (e : Event) : (s.record e).cpl = s.cpl := rfl
@[simp] theorem State.record_es (e : Event) : (s.record e).es = s.es := rfl
@[simp] theorem State.record_cs (e : Event) : (s.record e).cs = s.cs := rfl
@[simp] theorem State.record_ss (e : Event) : (s.record e).ss = s.ss := rfl
@[simp] theorem State.record_ds (e : Event) : (s.record e).ds = s.ds := rfl
@[simp] theorem State.record_fs (e : Event) : (s.record e).fs = s.fs := rfl
@[simp] theorem State.record_gs (e : Event) : (s.record e).gs = s.gs := rfl
@[simp] theorem State.record_tssBase (e : Event) : (s.record e).tssBase = s.tssBase := rfl
@[simp] theorem State.record_tssLimit (e : Event) : (s.record e).tssLimit = s.tssLimit := rfl
@[simp] theorem State.record_mem (e : Event) : (s.record e).mem = s.mem := rfl
@[simp] theorem State.record_prefixes (e : Event) : (s.record e).prefixes = s.prefixes := rfl
@[simp] theorem State.record_cfg (e : Event) : (s.record e).cfg = s.cfg := rfl
@[simp] theorem State.record_events (e : Event) : (s.record e).events = s.events ++ [e] := rfl
@[simp] theorem State.record_inputs (e : Event) : (s.record e).inputs = s.inputs := rfl
@[simp] theorem State.record_draws (e : Event) : (s.record e).draws = s.draws := rfl

/-! ### `State.dropAnswer` -/

@[simp] theorem State.dropAnswer_eax : (s.dropAnswer).eax = s.eax := rfl
@[simp] theorem State.dropAnswer_ebx : (s.dropAnswer).ebx = s.ebx := rfl
@[simp] theorem State.dropAnswer_ecx : (s.dropAnswer).ecx = s.ecx := rfl
@[simp] theorem State.dropAnswer_edx : (s.dropAnswer).edx = s.edx := rfl
@[simp] theorem State.dropAnswer_esi : (s.dropAnswer).esi = s.esi := rfl
@[simp] theorem State.dropAnswer_edi : (s.dropAnswer).edi = s.edi := rfl
@[simp] theorem State.dropAnswer_ebp : (s.dropAnswer).ebp = s.ebp := rfl
@[simp] theorem State.dropAnswer_esp : (s.dropAnswer).esp = s.esp := rfl
@[simp] theorem State.dropAnswer_pc : (s.dropAnswer).pc = s.pc := rfl
@[simp] theorem State.dropAnswer_flags : (s.dropAnswer).flags = s.flags := rfl
@[simp] theorem State.dropAnswer_mode : (s.dropAnswer).mode = s.mode := rfl
@[simp] theorem State.dropAnswer_cpl : (s.dropAnswer).cpl = s.cpl := rfl
@[simp] theorem State.dropAnswer_es : (s.dropAnswer).es = s.es := rfl
@[simp] theorem State.dropAnswer_cs : (s.dropAnswer).cs = s.cs := rfl
@[simp] theorem State.dropAnswer_ss : (s.dropAnswer).ss = s.ss := rfl
@[simp] theorem State.dropAnswer_ds : (s.dropAnswer).ds = s.ds := rfl
@[simp] theorem State.dropAnswer_fs : (s.dropAnswer).fs = s.fs := rfl
@[simp] theorem State.dropAnswer_gs : (s.dropAnswer).gs = s.gs := rfl
@[simp] theorem State.dropAnswer_tssBase : (s.dropAnswer).tssBase = s.tssBase := rfl
@[simp] theorem State.dropAnswer_tssLimit : (s.dropAnswer).tssLimit = s.tssLimit := rfl
@[simp] theorem State.dropAnswer_mem : (s.dropAnswer).mem = s.mem := rfl
@[simp] theorem State.dropAnswer_prefixes : (s.dropAnswer).prefixes = s.prefixes := rfl
@[simp] theorem State.dropAnswer_cfg : (s.dropAnswer).cfg = s.cfg := rfl
@[simp] theorem State.dropAnswer_events : (s.dropAnswer).events = s.events := rfl
@[simp] theorem State.dropAnswer_inputs : (s.dropAnswer).inputs = s.inputs.tail := rfl
@[simp] theorem State.dropAnswer_draws : (s.dropAnswer).draws = s.draws + 1 := rfl

/-! ### `State.complete` -/

@[simp] theorem State.complete_eax (n : Nat) : (s.complete n).eax = s.eax := rfl
@[simp] theorem State.complete_ebx (n : Nat) : (s.complete n).ebx = s.ebx := rfl
@[simp] theorem State.complete_ecx (n : Nat) : (s.complete n).ecx = s.ecx := rfl
@[simp] theorem State.complete_edx (n : Nat) : (s.complete n).edx = s.edx := rfl
@[simp] theorem State.complete_esi (n : Nat) : (s.complete n).esi = s.esi := rfl
@[simp] theorem State.complete_edi (n : Nat) : (s.complete n).edi = s.edi := rfl
@[simp] theorem State.complete_ebp (n : Nat) : (s.complete n).ebp = s.ebp := rfl
@[simp] theorem State.complete_esp (n : Nat) : (s.complete n).esp = s.esp := rfl
@[simp] theorem State.complete_pc (n : Nat) : (s.complete n).pc = s.pc + BitVec.ofNat 32 (s.prefixes.count + n) := rfl
@[simp] theorem State.complete_flags (n : Nat) : (s.complete n).flags = s.flags := rfl
@[simp] theorem State.complete_mode (n : Nat) : (s.complete n).mode = s.mode := rfl
@[simp] theorem State.complete_cpl (n : Nat) : (s.complete n).cpl = s.cpl := rfl
@[simp] theorem State.complete_es (n : Nat) : (s.complete n).es = s.es := rfl
@[simp] theorem State.complete_cs (n : Nat) : (s.complete n).cs = s.cs := rfl
@[simp] theorem State.complete_ss (n : Nat) : (s.complete n).ss = s.ss := rfl
@[simp] theorem State.complete_ds (n : Nat) : (s.complete n).ds = s.ds := rfl
@[simp] theorem State.complete_fs (n : Nat) : (s.complete n).fs = s.fs := rfl
@[simp] theorem State.complete_gs (n : Nat) : (s.complete n).gs = s.gs := rfl
@[simp] theorem State.complete_tssBase (n : Nat) : (s.complete n).tssBase = s.tssBase := rfl
@[simp] theorem State.complete_tssLimit (n : Nat) : (s.complete n).tssLimit = s.tssLimit := rfl
@[simp] theorem State.complete_mem (n : Nat) : (s.complete n).mem = s.mem := rfl
@[simp] theorem State.complete_prefixes (n : Nat) : (s.complete n).prefixes = Prefixes.none := rfl
@[simp] theorem State.complete_cfg (n : Nat) : (s.complete n).cfg = s.cfg := rfl
@[simp] theorem State.complete_events (n : Nat) : (s.complete n).events = s.events := rfl
@[simp] theorem State.complete_inputs (n : Nat) : (s.complete n).inputs = s.inputs := rfl
@[simp] theorem State.complete_draws (n : Nat) : (s.complete n).draws = s.draws := rfl

/-! ### `State.again` -/

@[simp] theorem State.again_eax : (s.again).eax = s.eax := rfl
@[simp] theorem State.again_ebx : (s.again).ebx = s.ebx := rfl
@[simp] theorem State.again_ecx : (s.again).ecx = s.ecx := rfl
@[simp] theorem State.again_edx : (s.again).edx = s.edx := rfl
@[simp] theorem State.again_esi : (s.again).esi = s.esi := rfl
@[simp] theorem State.again_edi : (s.again).edi = s.edi := rfl
@[simp] theorem State.again_ebp : (s.again).ebp = s.ebp := rfl
@[simp] theorem State.again_esp : (s.again).esp = s.esp := rfl
@[simp] theorem State.again_pc : (s.again).pc = s.pc := rfl
@[simp] theorem State.again_flags : (s.again).flags = s.flags := rfl
@[simp] theorem State.again_mode : (s.again).mode = s.mode := rfl
@[simp] theorem State.again_cpl : (s.again).cpl = s.cpl := rfl
@[simp] theorem State.again_es : (s.again).es = s.es := rfl
@[simp] theorem State.again_cs : (s.again).cs = s.cs := rfl
@[simp] theorem State.again_ss : (s.again).ss = s.ss := rfl
@[simp] theorem State.again_ds : (s.again).ds = s.ds := rfl
@[simp] theorem State.again_fs : (s.again).fs = s.fs := rfl
@[simp] theorem State.again_gs : (s.again).gs = s.gs := rfl
@[simp] theorem State.again_tssBase : (s.again).tssBase = s.tssBase := rfl
@[simp] theorem State.again_tssLimit : (s.again).tssLimit = s.tssLimit := rfl
@[simp] theorem State.again_mem : (s.again).mem = s.mem := rfl
@[simp] theorem State.again_prefixes : (s.again).prefixes = Prefixes.none := rfl
@[simp] theorem State.again_cfg : (s.again).cfg = s.cfg := rfl
@[simp] theorem State.again_events : (s.again).events = s.events := rfl
@[simp] theorem State.again_inputs : (s.again).inputs = s.inputs := rfl
@[simp] theorem State.again_draws : (s.again).draws = s.draws := rfl

/-! ### `State.portRead` -/

@[simp] theorem State.portRead_eax (p : Port) (w : Width) : (s.portRead p w).eax = s.eax := rfl
@[simp] theorem State.portRead_ebx (p : Port) (w : Width) : (s.portRead p w).ebx = s.ebx := rfl
@[simp] theorem State.portRead_ecx (p : Port) (w : Width) : (s.portRead p w).ecx = s.ecx := rfl
@[simp] theorem State.portRead_edx (p : Port) (w : Width) : (s.portRead p w).edx = s.edx := rfl
@[simp] theorem State.portRead_esi (p : Port) (w : Width) : (s.portRead p w).esi = s.esi := rfl
@[simp] theorem State.portRead_edi (p : Port) (w : Width) : (s.portRead p w).edi = s.edi := rfl
@[simp] theorem State.portRead_ebp (p : Port) (w : Width) : (s.portRead p w).ebp = s.ebp := rfl
@[simp] theorem State.portRead_esp (p : Port) (w : Width) : (s.portRead p w).esp = s.esp := rfl
@[simp] theorem State.portRead_pc (p : Port) (w : Width) : (s.portRead p w).pc = s.pc := rfl
@[simp] theorem State.portRead_flags (p : Port) (w : Width) : (s.portRead p w).flags = s.flags := rfl
@[simp] theorem State.portRead_mode (p : Port) (w : Width) : (s.portRead p w).mode = s.mode := rfl
@[simp] theorem State.portRead_cpl (p : Port) (w : Width) : (s.portRead p w).cpl = s.cpl := rfl
@[simp] theorem State.portRead_es (p : Port) (w : Width) : (s.portRead p w).es = s.es := rfl
@[simp] theorem State.portRead_cs (p : Port) (w : Width) : (s.portRead p w).cs = s.cs := rfl
@[simp] theorem State.portRead_ss (p : Port) (w : Width) : (s.portRead p w).ss = s.ss := rfl
@[simp] theorem State.portRead_ds (p : Port) (w : Width) : (s.portRead p w).ds = s.ds := rfl
@[simp] theorem State.portRead_fs (p : Port) (w : Width) : (s.portRead p w).fs = s.fs := rfl
@[simp] theorem State.portRead_gs (p : Port) (w : Width) : (s.portRead p w).gs = s.gs := rfl
@[simp] theorem State.portRead_tssBase (p : Port) (w : Width) : (s.portRead p w).tssBase = s.tssBase := rfl
@[simp] theorem State.portRead_tssLimit (p : Port) (w : Width) : (s.portRead p w).tssLimit = s.tssLimit := rfl
@[simp] theorem State.portRead_mem (p : Port) (w : Width) : (s.portRead p w).mem = s.mem := rfl
@[simp] theorem State.portRead_prefixes (p : Port) (w : Width) : (s.portRead p w).prefixes = s.prefixes := rfl
@[simp] theorem State.portRead_cfg (p : Port) (w : Width) : (s.portRead p w).cfg = s.cfg := rfl
@[simp] theorem State.portRead_events (p : Port) (w : Width) : (s.portRead p w).events = s.events ++ [.portRead p w (s.portValue w)] := rfl
@[simp] theorem State.portRead_inputs (p : Port) (w : Width) : (s.portRead p w).inputs = s.inputs.tail := rfl
@[simp] theorem State.portRead_draws (p : Port) (w : Width) : (s.portRead p w).draws = s.draws + 1 := rfl

/-! ### `State.portWrite` -/

@[simp] theorem State.portWrite_eax (p : Port) (w : Width) (v : Word) : (s.portWrite p w v).eax = s.eax := rfl
@[simp] theorem State.portWrite_ebx (p : Port) (w : Width) (v : Word) : (s.portWrite p w v).ebx = s.ebx := rfl
@[simp] theorem State.portWrite_ecx (p : Port) (w : Width) (v : Word) : (s.portWrite p w v).ecx = s.ecx := rfl
@[simp] theorem State.portWrite_edx (p : Port) (w : Width) (v : Word) : (s.portWrite p w v).edx = s.edx := rfl
@[simp] theorem State.portWrite_esi (p : Port) (w : Width) (v : Word) : (s.portWrite p w v).esi = s.esi := rfl
@[simp] theorem State.portWrite_edi (p : Port) (w : Width) (v : Word) : (s.portWrite p w v).edi = s.edi := rfl
@[simp] theorem State.portWrite_ebp (p : Port) (w : Width) (v : Word) : (s.portWrite p w v).ebp = s.ebp := rfl
@[simp] theorem State.portWrite_esp (p : Port) (w : Width) (v : Word) : (s.portWrite p w v).esp = s.esp := rfl
@[simp] theorem State.portWrite_pc (p : Port) (w : Width) (v : Word) : (s.portWrite p w v).pc = s.pc := rfl
@[simp] theorem State.portWrite_flags (p : Port) (w : Width) (v : Word) : (s.portWrite p w v).flags = s.flags := rfl
@[simp] theorem State.portWrite_mode (p : Port) (w : Width) (v : Word) : (s.portWrite p w v).mode = s.mode := rfl
@[simp] theorem State.portWrite_cpl (p : Port) (w : Width) (v : Word) : (s.portWrite p w v).cpl = s.cpl := rfl
@[simp] theorem State.portWrite_es (p : Port) (w : Width) (v : Word) : (s.portWrite p w v).es = s.es := rfl
@[simp] theorem State.portWrite_cs (p : Port) (w : Width) (v : Word) : (s.portWrite p w v).cs = s.cs := rfl
@[simp] theorem State.portWrite_ss (p : Port) (w : Width) (v : Word) : (s.portWrite p w v).ss = s.ss := rfl
@[simp] theorem State.portWrite_ds (p : Port) (w : Width) (v : Word) : (s.portWrite p w v).ds = s.ds := rfl
@[simp] theorem State.portWrite_fs (p : Port) (w : Width) (v : Word) : (s.portWrite p w v).fs = s.fs := rfl
@[simp] theorem State.portWrite_gs (p : Port) (w : Width) (v : Word) : (s.portWrite p w v).gs = s.gs := rfl
@[simp] theorem State.portWrite_tssBase (p : Port) (w : Width) (v : Word) : (s.portWrite p w v).tssBase = s.tssBase := rfl
@[simp] theorem State.portWrite_tssLimit (p : Port) (w : Width) (v : Word) : (s.portWrite p w v).tssLimit = s.tssLimit := rfl
@[simp] theorem State.portWrite_mem (p : Port) (w : Width) (v : Word) : (s.portWrite p w v).mem = s.mem := rfl
@[simp] theorem State.portWrite_prefixes (p : Port) (w : Width) (v : Word) : (s.portWrite p w v).prefixes = s.prefixes := rfl
@[simp] theorem State.portWrite_cfg (p : Port) (w : Width) (v : Word) : (s.portWrite p w v).cfg = s.cfg := rfl
@[simp] theorem State.portWrite_events (p : Port) (w : Width) (v : Word) : (s.portWrite p w v).events = s.events ++ [.portWrite p w (truncTo w v)] := rfl
@[simp] theorem State.portWrite_inputs (p : Port) (w : Width) (v : Word) : (s.portWrite p w v).inputs = s.inputs := rfl
@[simp] theorem State.portWrite_draws (p : Port) (w : Width) (v : Word) : (s.portWrite p w v).draws = s.draws := rfl

/-! ### `State.setAccumulator` -/

@[simp] theorem State.setAccumulator_eax (w : Width) (v : Word) : (s.setAccumulator w v).eax = insertLow w s.eax v := rfl
@[simp] theorem State.setAccumulator_ebx (w : Width) (v : Word) : (s.setAccumulator w v).ebx = s.ebx := rfl
@[simp] theorem State.setAccumulator_ecx (w : Width) (v : Word) : (s.setAccumulator w v).ecx = s.ecx := rfl
@[simp] theorem State.setAccumulator_edx (w : Width) (v : Word) : (s.setAccumulator w v).edx = s.edx := rfl
@[simp] theorem State.setAccumulator_esi (w : Width) (v : Word) : (s.setAccumulator w v).esi = s.esi := rfl
@[simp] theorem State.setAccumulator_edi (w : Width) (v : Word) : (s.setAccumulator w v).edi = s.edi := rfl
@[simp] theorem State.setAccumulator_ebp (w : Width) (v : Word) : (s.setAccumulator w v).ebp = s.ebp := rfl
@[simp] theorem State.setAccumulator_esp (w : Width) (v : Word) : (s.setAccumulator w v).esp = s.esp := rfl
@[simp] theorem State.setAccumulator_pc (w : Width) (v : Word) : (s.setAccumulator w v).pc = s.pc := rfl
@[simp] theorem State.setAccumulator_flags (w : Width) (v : Word) : (s.setAccumulator w v).flags = s.flags := rfl
@[simp] theorem State.setAccumulator_mode (w : Width) (v : Word) : (s.setAccumulator w v).mode = s.mode := rfl
@[simp] theorem State.setAccumulator_cpl (w : Width) (v : Word) : (s.setAccumulator w v).cpl = s.cpl := rfl
@[simp] theorem State.setAccumulator_es (w : Width) (v : Word) : (s.setAccumulator w v).es = s.es := rfl
@[simp] theorem State.setAccumulator_cs (w : Width) (v : Word) : (s.setAccumulator w v).cs = s.cs := rfl
@[simp] theorem State.setAccumulator_ss (w : Width) (v : Word) : (s.setAccumulator w v).ss = s.ss := rfl
@[simp] theorem State.setAccumulator_ds (w : Width) (v : Word) : (s.setAccumulator w v).ds = s.ds := rfl
@[simp] theorem State.setAccumulator_fs (w : Width) (v : Word) : (s.setAccumulator w v).fs = s.fs := rfl
@[simp] theorem State.setAccumulator_gs (w : Width) (v : Word) : (s.setAccumulator w v).gs = s.gs := rfl
@[simp] theorem State.setAccumulator_tssBase (w : Width) (v : Word) : (s.setAccumulator w v).tssBase = s.tssBase := rfl
@[simp] theorem State.setAccumulator_tssLimit (w : Width) (v : Word) : (s.setAccumulator w v).tssLimit = s.tssLimit := rfl
@[simp] theorem State.setAccumulator_mem (w : Width) (v : Word) : (s.setAccumulator w v).mem = s.mem := rfl
@[simp] theorem State.setAccumulator_prefixes (w : Width) (v : Word) : (s.setAccumulator w v).prefixes = s.prefixes := rfl
@[simp] theorem State.setAccumulator_cfg (w : Width) (v : Word) : (s.setAccumulator w v).cfg = s.cfg := rfl
@[simp] theorem State.setAccumulator_events (w : Width) (v : Word) : (s.setAccumulator w v).events = s.events := rfl
@[simp] theorem State.setAccumulator_inputs (w : Width) (v : Word) : (s.setAccumulator w v).inputs = s.inputs := rfl
@[simp] theorem State.setAccumulator_draws (w : Width) (v : Word) : (s.setAccumulator w v).draws = s.draws := rfl

/-! ### `State.stepEdi` -/

@[simp] theorem State.stepEdi_eax (w : Width) : (s.stepEdi w).eax = s.eax := rfl
@[simp] theorem State.stepEdi_ebx (w : Width) : (s.stepEdi w).ebx = s.ebx := rfl
@[simp] theorem State.stepEdi_ecx (w : Width) : (s.stepEdi w).ecx = s.ecx := rfl
@[simp] theorem State.stepEdi_edx (w : Width) : (s.stepEdi w).edx = s.edx := rfl
@[simp] theorem State.stepEdi_esi (w : Width) : (s.stepEdi w).esi = s.esi := rfl
@[simp] theorem State.stepEdi_edi (w : Width) : (s.stepEdi w).edi = steppedIndex s.addressSize s.flags.direction w s.edi := rfl
@[simp] theorem State.stepEdi_ebp (w : Width) : (s.stepEdi w).ebp = s.ebp := rfl
@[simp] theorem State.stepEdi_esp (w : Width) : (s.stepEdi w).esp = s.esp := rfl
@[simp] theorem State.stepEdi_pc (w : Width) : (s.stepEdi w).pc = s.pc := rfl
@[simp] theorem State.stepEdi_flags (w : Width) : (s.stepEdi w).flags = s.flags := rfl
@[simp] theorem State.stepEdi_mode (w : Width) : (s.stepEdi w).mode = s.mode := rfl
@[simp] theorem State.stepEdi_cpl (w : Width) : (s.stepEdi w).cpl = s.cpl := rfl
@[simp] theorem State.stepEdi_es (w : Width) : (s.stepEdi w).es = s.es := rfl
@[simp] theorem State.stepEdi_cs (w : Width) : (s.stepEdi w).cs = s.cs := rfl
@[simp] theorem State.stepEdi_ss (w : Width) : (s.stepEdi w).ss = s.ss := rfl
@[simp] theorem State.stepEdi_ds (w : Width) : (s.stepEdi w).ds = s.ds := rfl
@[simp] theorem State.stepEdi_fs (w : Width) : (s.stepEdi w).fs = s.fs := rfl
@[simp] theorem State.stepEdi_gs (w : Width) : (s.stepEdi w).gs = s.gs := rfl
@[simp] theorem State.stepEdi_tssBase (w : Width) : (s.stepEdi w).tssBase = s.tssBase := rfl
@[simp] theorem State.stepEdi_tssLimit (w : Width) : (s.stepEdi w).tssLimit = s.tssLimit := rfl
@[simp] theorem State.stepEdi_mem (w : Width) : (s.stepEdi w).mem = s.mem := rfl
@[simp] theorem State.stepEdi_prefixes (w : Width) : (s.stepEdi w).prefixes = s.prefixes := rfl
@[simp] theorem State.stepEdi_cfg (w : Width) : (s.stepEdi w).cfg = s.cfg := rfl
@[simp] theorem State.stepEdi_events (w : Width) : (s.stepEdi w).events = s.events := rfl
@[simp] theorem State.stepEdi_inputs (w : Width) : (s.stepEdi w).inputs = s.inputs := rfl
@[simp] theorem State.stepEdi_draws (w : Width) : (s.stepEdi w).draws = s.draws := rfl

/-! ### `State.stepEsi` -/

@[simp] theorem State.stepEsi_eax (w : Width) : (s.stepEsi w).eax = s.eax := rfl
@[simp] theorem State.stepEsi_ebx (w : Width) : (s.stepEsi w).ebx = s.ebx := rfl
@[simp] theorem State.stepEsi_ecx (w : Width) : (s.stepEsi w).ecx = s.ecx := rfl
@[simp] theorem State.stepEsi_edx (w : Width) : (s.stepEsi w).edx = s.edx := rfl
@[simp] theorem State.stepEsi_esi (w : Width) : (s.stepEsi w).esi = steppedIndex s.addressSize s.flags.direction w s.esi := rfl
@[simp] theorem State.stepEsi_edi (w : Width) : (s.stepEsi w).edi = s.edi := rfl
@[simp] theorem State.stepEsi_ebp (w : Width) : (s.stepEsi w).ebp = s.ebp := rfl
@[simp] theorem State.stepEsi_esp (w : Width) : (s.stepEsi w).esp = s.esp := rfl
@[simp] theorem State.stepEsi_pc (w : Width) : (s.stepEsi w).pc = s.pc := rfl
@[simp] theorem State.stepEsi_flags (w : Width) : (s.stepEsi w).flags = s.flags := rfl
@[simp] theorem State.stepEsi_mode (w : Width) : (s.stepEsi w).mode = s.mode := rfl
@[simp] theorem State.stepEsi_cpl (w : Width) : (s.stepEsi w).cpl = s.cpl := rfl
@[simp] theorem State.stepEsi_es (w : Width) : (s.stepEsi w).es = s.es := rfl
@[simp] theorem State.stepEsi_cs (w : Width) : (s.stepEsi w).cs = s.cs := rfl
@[simp] theorem State.stepEsi_ss (w : Width) : (s.stepEsi w).ss = s.ss := rfl
@[simp] theorem State.stepEsi_ds (w : Width) : (s.stepEsi w).ds = s.ds := rfl
@[simp] theorem State.stepEsi_fs (w : Width) : (s.stepEsi w).fs = s.fs := rfl
@[simp] theorem State.stepEsi_gs (w : Width) : (s.stepEsi w).gs = s.gs := rfl
@[simp] theorem State.stepEsi_tssBase (w : Width) : (s.stepEsi w).tssBase = s.tssBase := rfl
@[simp] theorem State.stepEsi_tssLimit (w : Width) : (s.stepEsi w).tssLimit = s.tssLimit := rfl
@[simp] theorem State.stepEsi_mem (w : Width) : (s.stepEsi w).mem = s.mem := rfl
@[simp] theorem State.stepEsi_prefixes (w : Width) : (s.stepEsi w).prefixes = s.prefixes := rfl
@[simp] theorem State.stepEsi_cfg (w : Width) : (s.stepEsi w).cfg = s.cfg := rfl
@[simp] theorem State.stepEsi_events (w : Width) : (s.stepEsi w).events = s.events := rfl
@[simp] theorem State.stepEsi_inputs (w : Width) : (s.stepEsi w).inputs = s.inputs := rfl
@[simp] theorem State.stepEsi_draws (w : Width) : (s.stepEsi w).draws = s.draws := rfl

/-! ### `State.setRepeatCount` -/

@[simp] theorem State.setRepeatCount_eax (v : Word) : (s.setRepeatCount v).eax = s.eax := rfl
@[simp] theorem State.setRepeatCount_ebx (v : Word) : (s.setRepeatCount v).ebx = s.ebx := rfl
@[simp] theorem State.setRepeatCount_ecx (v : Word) : (s.setRepeatCount v).ecx = sizedWrite s.addressSize s.ecx v := rfl
@[simp] theorem State.setRepeatCount_edx (v : Word) : (s.setRepeatCount v).edx = s.edx := rfl
@[simp] theorem State.setRepeatCount_esi (v : Word) : (s.setRepeatCount v).esi = s.esi := rfl
@[simp] theorem State.setRepeatCount_edi (v : Word) : (s.setRepeatCount v).edi = s.edi := rfl
@[simp] theorem State.setRepeatCount_ebp (v : Word) : (s.setRepeatCount v).ebp = s.ebp := rfl
@[simp] theorem State.setRepeatCount_esp (v : Word) : (s.setRepeatCount v).esp = s.esp := rfl
@[simp] theorem State.setRepeatCount_pc (v : Word) : (s.setRepeatCount v).pc = s.pc := rfl
@[simp] theorem State.setRepeatCount_flags (v : Word) : (s.setRepeatCount v).flags = s.flags := rfl
@[simp] theorem State.setRepeatCount_mode (v : Word) : (s.setRepeatCount v).mode = s.mode := rfl
@[simp] theorem State.setRepeatCount_cpl (v : Word) : (s.setRepeatCount v).cpl = s.cpl := rfl
@[simp] theorem State.setRepeatCount_es (v : Word) : (s.setRepeatCount v).es = s.es := rfl
@[simp] theorem State.setRepeatCount_cs (v : Word) : (s.setRepeatCount v).cs = s.cs := rfl
@[simp] theorem State.setRepeatCount_ss (v : Word) : (s.setRepeatCount v).ss = s.ss := rfl
@[simp] theorem State.setRepeatCount_ds (v : Word) : (s.setRepeatCount v).ds = s.ds := rfl
@[simp] theorem State.setRepeatCount_fs (v : Word) : (s.setRepeatCount v).fs = s.fs := rfl
@[simp] theorem State.setRepeatCount_gs (v : Word) : (s.setRepeatCount v).gs = s.gs := rfl
@[simp] theorem State.setRepeatCount_tssBase (v : Word) : (s.setRepeatCount v).tssBase = s.tssBase := rfl
@[simp] theorem State.setRepeatCount_tssLimit (v : Word) : (s.setRepeatCount v).tssLimit = s.tssLimit := rfl
@[simp] theorem State.setRepeatCount_mem (v : Word) : (s.setRepeatCount v).mem = s.mem := rfl
@[simp] theorem State.setRepeatCount_prefixes (v : Word) : (s.setRepeatCount v).prefixes = s.prefixes := rfl
@[simp] theorem State.setRepeatCount_cfg (v : Word) : (s.setRepeatCount v).cfg = s.cfg := rfl
@[simp] theorem State.setRepeatCount_events (v : Word) : (s.setRepeatCount v).events = s.events := rfl
@[simp] theorem State.setRepeatCount_inputs (v : Word) : (s.setRepeatCount v).inputs = s.inputs := rfl
@[simp] theorem State.setRepeatCount_draws (v : Word) : (s.setRepeatCount v).draws = s.draws := rfl

end Sys2Proof.Machine
end

