-- ==== Sys2Proof/Laws/Ops.lean ====
section
/-! SUPPORT. For each shared operation, once, everything it can do if it answers a next state. -/

namespace Sys2Proof.Machine

theorem andThen_next {r : Result} {k : State → Result} {t : State} (h : andThen r k = .next t) :
    ∃ u, r = .next u ∧ k u = .next t := by
  cases r with
  | next u => exact ⟨u, rfl, h⟩
  | fault e => cases h
  | refused e => cases h

theorem withinLength_next {n : Nat} {s t : State} {k : State → Result} (h : withinLength n s k = .next t) :
    s.prefixes.count + n ≤ maxLength ∧ k s = .next t := by
  unfold withinLength at h
  split at h
  · cases h
  · exact ⟨by omega, h⟩

/-- No prefix is refused exactly where neither F2 nor F0 was read, and F3 only before a string instruction. -/
theorem refusedOn_none {p : Prefixes} {string : Bool} :
    p.refusedOn string = none ↔ p.repne = false ∧ p.lock = false ∧ (p.rep = true → string = true) := by
  unfold Prefixes.refusedOn
  cases p.lock <;> cases p.repne <;> cases p.rep <;> cases string <;> simp

/-- Which prefix refuses, where one does. -/
theorem refusedOn_lock {p : Prefixes} (h : p.lock = true) (string : Bool) : p.refusedOn string = some .lockPrefix := by
  simp [Prefixes.refusedOn, h]

theorem refusedOn_repne {p : Prefixes} (h : p.lock = false) (h2 : p.repne = true) (string : Bool) :
    p.refusedOn string = some .repnePrefix := by
  simp [Prefixes.refusedOn, h, h2]

theorem refusedOn_rep {p : Prefixes} (h : p.lock = false) (h2 : p.repne = false) (h3 : p.rep = true) :
    p.refusedOn false = some .repOnNonString := by
  simp [Prefixes.refusedOn, h, h2, h3]

theorem accepting_next {n : Nat} {b : Bool} {s t : State} {k : State → Result} (h : accepting n b s k = .next t) :
    s.prefixes.count + n ≤ maxLength ∧ s.prefixes.refusedOn b = none ∧ k s = .next t := by
  obtain ⟨hl, h⟩ := withinLength_next h
  split at h
  · cases h
  · exact ⟨hl, by assumption, h⟩

theorem plain_next {n : Nat} {s t : State} {k : State → Result} (h : plain n s k = .next t) :
    s.prefixes.count + n ≤ maxLength ∧ s.prefixes.refusedOn false = none ∧ k s = .next t := accepting_next h

theorem guarded_next {p : Port} {w : Width} {s t : State} {k : State → Result} (h : guarded p w s k = .next t) :
    s.ioCheck p w = .pass ∧ p.toNat + widthBytes w ≤ 65536 ∧ k s = .next t := by
  unfold guarded at h
  split at h
  · cases h
  · cases h
  · split at h
    · cases h
    · exact ⟨by assumption, by omega, h⟩

theorem sensitive_next {c : GpCause} {s t : State} {k : State → Result} (h : sensitive c s k = .next t) :
    s.sensitiveAllowed = true ∧ k s = .next t := by
  unfold sensitive at h
  split at h
  · exact ⟨by assumption, h⟩
  · cases h

/-- A string instruction either has done an element, and ends or starts again, or had nothing to do. -/
theorem repeated_next {s t : State} {f : State → Result} (h : repeated s f = .next t) :
    s.prefixes.count + 1 ≤ maxLength ∧ s.prefixes.refusedOn true = none ∧
      ((s.prefixes.rep = true ∧ s.repeatCount = 0 ∧ t = s.complete 1) ∨
        (s.prefixes.rep = false ∧ ∃ u, f s = .next u ∧ t = u.complete 1) ∨
        (s.prefixes.rep = true ∧ s.repeatCount ≠ 0 ∧ ∃ u, f s = .next u ∧
          ((u.setRepeatCount (u.repeatCount - 1)).repeatCount = 0 ∧
              t = (u.setRepeatCount (u.repeatCount - 1)).complete 1 ∨
            (u.setRepeatCount (u.repeatCount - 1)).repeatCount ≠ 0 ∧
              t = (u.setRepeatCount (u.repeatCount - 1)).again))) := by
  obtain ⟨hl, hf, h⟩ := accepting_next h
  refine ⟨hl, hf, ?_⟩
  split at h
  · rename_i hr
    split at h
    · exact .inl ⟨hr, by assumption, by cases h; rfl⟩
    · obtain ⟨u, hu, h⟩ := andThen_next h
      refine .inr (.inr ⟨hr, by assumption, u, hu, ?_⟩)
      simp only [Host.Outcome.next.injEq] at h
      split at h
      · exact .inl ⟨by assumption, h.symm⟩
      · exact .inr ⟨by assumption, h.symm⟩
  · rename_i hr
    obtain ⟨u, hu, h⟩ := andThen_next h
    exact .inr (.inl ⟨by simpa using hr, u, hu, by cases h; rfl⟩)

theorem notePrefix_next {p : Prefixes} {s t : State} (h : notePrefix p s = .next t) :
    s.prefixes.count + 2 ≤ maxLength ∧ t = s.setPrefixes p := by
  obtain ⟨hl, h⟩ := withinLength_next h
  exact ⟨hl, by cases h; rfl⟩

theorem inputFrom_next {w : Width} {p : Port} {n : Nat} {s t : State} (h : inputFrom w p n s = .next t) :
    s.prefixes.count + n ≤ maxLength ∧ s.prefixes.refusedOn false = none ∧ s.ioCheck p w = .pass ∧
      p.toNat + widthBytes w ≤ 65536 ∧
      t = ((s.portRead p w).setAccumulator w (s.portValue w)).complete n := by
  obtain ⟨hl, hr, h⟩ := plain_next h
  obtain ⟨hc, hp, h⟩ := guarded_next h
  exact ⟨hl, hr, hc, hp, by cases h; rfl⟩

theorem outputTo_next {w : Width} {p : Port} {n : Nat} {s t : State} (h : outputTo w p n s = .next t) :
    s.prefixes.count + n ≤ maxLength ∧ s.prefixes.refusedOn false = none ∧ s.ioCheck p w = .pass ∧
      p.toNat + widthBytes w ≤ 65536 ∧ t = (s.portWrite p w (s.accumulator w)).complete n := by
  obtain ⟨hl, hr, h⟩ := plain_next h
  obtain ⟨hc, hp, h⟩ := guarded_next h
  exact ⟨hl, hr, hc, hp, by cases h; rfl⟩

theorem insElement_next {w : Width} {s t : State} (h : insElement w s = .next t) :
    s.ioCheck s.dxPort w = .pass ∧ s.dxPort.toNat + widthBytes w ≤ 65536 ∧
      ∃ as, s.insLocations w = some as ∧ s.overlapsText as = false ∧
        t = ((s.portRead s.dxPort w).memWrite as (s.portValue w)).stepEdi w := by
  obtain ⟨hc, hp, h⟩ := guarded_next h
  refine ⟨hc, hp, ?_⟩
  split at h
  · cases h
  · rename_i a ha
    split at h
    · cases h
    · rename_i ho
      exact ⟨a, ha, by simpa using ho, by cases h; rfl⟩

theorem outsElement_next {w : Width} {s t : State} (h : outsElement w s = .next t) :
    s.ioCheck s.dxPort w = .pass ∧ s.dxPort.toNat + widthBytes w ≤ 65536 ∧
      ∃ as, s.outsLocations w = some as ∧
        t = ((s.memRead as).portWrite s.dxPort w (s.memValue as)).stepEsi w := by
  obtain ⟨hc, hp, h⟩ := guarded_next h
  refine ⟨hc, hp, ?_⟩
  split at h
  · cases h
  · rename_i a ha
    exact ⟨a, ha, by cases h; rfl⟩

theorem popFlags_next {s t : State} (h : popFlags s = .next t) :
    s.prefixes.count + 1 ≤ maxLength ∧ s.prefixes.refusedOn false = none ∧ s.mode ≠ .virtual8086 ∧
      t = ((s.dropAnswer.setFlags (s.poppedFlags s.nextAnswer)).setEsp
        (Config.stackPointerAfterPop s.draws)).complete 1 := by
  obtain ⟨hl, hr, h⟩ := plain_next h
  refine ⟨hl, hr, ?_⟩
  split at h
  · cases h
  all_goals exact ⟨by simp_all, by cases h; rfl⟩

/-- An operand that `Seg` allows: as many locations as it has bytes, no two the same, all of them in memory. -/
theorem State.segLocations_some {s : State} {size : SizeAttr} {r : SegName} {off : Word} {w : Width} {wr : Bool}
    {as : List Nat} (h : s.segLocations size r off w wr = some as) :
    as.length = widthBytes w ∧ as.Nodup ∧ ∀ a ∈ as, a < memorySize := by
  have h := (Option.filter_eq_some_iff.1 h).2
  simpa [areLocations, and_assoc] using h

/-- What `MemWrite` does: memory takes the bytes, a device sees an event, nothing else changes. -/
theorem State.memWrite_eq (s : State) (as : List Nat) (v : Word) :
    s.memWrite as v =
      { s with
        mem := Memory.storeLE s.isDevice s.mem as v
        events := s.events ++ (if s.touchesDevice as then [.deviceWrite as v] else []) } := by
  unfold State.memWrite
  simp only
  split <;> simp [State.setMem, State.record]

/-- What `MemRead` does to the state: nothing, but where a device is in the operand. -/
theorem State.memRead_eq (s : State) (as : List Nat) :
    s.memRead as =
      if s.touchesDevice as then s.dropAnswer.record (.deviceRead as (s.memValue as)) else s := rfl

/-- What `MemWrite` leaves alone. -/
@[simp] theorem State.memWrite_edi (s : State) (as : List Nat) (v : Word) : (s.memWrite as v).edi = s.edi := by
  rw [State.memWrite_eq]

@[simp] theorem State.memWrite_ecx (s : State) (as : List Nat) (v : Word) : (s.memWrite as v).ecx = s.ecx := by
  rw [State.memWrite_eq]

@[simp] theorem State.memWrite_prefixes (s : State) (as : List Nat) (v : Word) :
    (s.memWrite as v).prefixes = s.prefixes := by
  rw [State.memWrite_eq]

@[simp] theorem State.memWrite_cfg (s : State) (as : List Nat) (v : Word) : (s.memWrite as v).cfg = s.cfg := by
  rw [State.memWrite_eq]

@[simp] theorem State.memWrite_flags (s : State) (as : List Nat) (v : Word) :
    (s.memWrite as v).flags = s.flags := by
  rw [State.memWrite_eq]

/-- What `MemRead` leaves alone. -/
@[simp] theorem State.memRead_esi (s : State) (as : List Nat) : (s.memRead as).esi = s.esi := by
  rw [State.memRead_eq]; split <;> rfl

@[simp] theorem State.memRead_ecx (s : State) (as : List Nat) : (s.memRead as).ecx = s.ecx := by
  rw [State.memRead_eq]; split <;> rfl

@[simp] theorem State.memRead_mem (s : State) (as : List Nat) : (s.memRead as).mem = s.mem := by
  rw [State.memRead_eq]; split <;> rfl

@[simp] theorem State.memRead_prefixes (s : State) (as : List Nat) :
    (s.memRead as).prefixes = s.prefixes := by
  rw [State.memRead_eq]; split <;> rfl

@[simp] theorem State.memRead_cfg (s : State) (as : List Nat) : (s.memRead as).cfg = s.cfg := by
  rw [State.memRead_eq]; split <;> rfl

@[simp] theorem State.memRead_flags (s : State) (as : List Nat) : (s.memRead as).flags = s.flags := by
  rw [State.memRead_eq]; split <;> rfl

/-- The protection check passes exactly in real mode, within IOPL in protected mode, or where the map allows. -/
theorem State.ioCheck_pass {s : State} {p : Port} {w : Width} (h : s.ioCheck p w = .pass) :
    s.mode = .realMode ∨ (s.mode = .protectedMode ∧ s.cplWithinIopl = true) ∨ s.consultMap p w = .pass := by
  unfold State.ioCheck at h
  split at h
  · exact .inl (by assumption)
  · split at h
    · exact .inr (.inl ⟨by assumption, by assumption⟩)
    · exact .inr (.inr h)
  · exact .inr (.inr h)

/-- Where the map lets a transfer pass, it exists and denies no port of the span. -/
theorem State.consultMap_pass {s : State} {p : Port} {w : Width} (h : s.consultMap p w = .pass) :
    s.tssRefusal = none ∧ s.ioMapBase < s.tssLimit.toNat ∧
      ∀ i < widthBytes w, s.portDenied (p.toNat + i) = false := by
  unfold State.consultMap at h
  split at h
  · cases h
  · rename_i hr
    split at h
    · cases h
    · split at h
      · cases h
      · split at h
        · cases h
        · refine ⟨hr, by omega, fun i hi => ?_⟩
          rename_i hn
          by_contra hc
          exact hn (List.any_eq_true.2 ⟨i, List.mem_range.2 hi, by simpa using hc⟩)

/-- What may consult the map denies. -/
theorem State.consultMap_deny {s : State} {p : Port} {w : Width} (hr : s.tssRefusal = none) :
    s.consultMap p w = .deny ↔
      s.tssLimit.toNat ≤ s.ioMapBase ∨
        (s.cfg.iopbFetch = .two ∧ s.tssLimit.toNat < s.ioMapBase + p.toNat / 8 + 1) ∨
        ∃ i < widthBytes w, s.portDenied (p.toNat + i) = true := by
  unfold State.consultMap
  rw [hr]
  dsimp only
  by_cases h1 : s.tssLimit.toNat ≤ s.ioMapBase
  · simp [h1]
  · by_cases h2 : s.cfg.iopbFetch = .two ∧ s.tssLimit.toNat < s.ioMapBase + p.toNat / 8 + 1
    · rw [if_neg h1, if_pos h2]; exact ⟨fun _ => .inr (.inl h2), fun _ => rfl⟩
    · rw [if_neg h1, if_neg h2]
      simp only [h1, h2, false_or]
      simp [List.any_eq_true]

end Sys2Proof.Machine
end

