-- ==== Sys2Proof/Laws/Exec.lean ====
section
/-! SUPPORT. What each instruction's meaning is over the shared operations, and, once, everything an instruction can
have done if exec answers a next state. -/

namespace Sys2Proof.Machine

theorem exec_of_isIn {i : Instr} {s : State} {p : Port} {w : Width} (hi : isIn i = true)
    (ht : transferOf i s = some (p, w)) : exec i s = inputFrom w p i.opLength s := by
  cases i <;> simp only [isIn, Bool.false_eq_true] at hi <;>
    (simp only [transferOf, Option.some.injEq, Prod.mk.injEq] at ht; obtain ⟨rfl, rfl⟩ := ht; rfl)

theorem exec_of_isOut {i : Instr} {s : State} {p : Port} {w : Width} (hi : isIn i = false) (hs : i.isString = false)
    (ht : transferOf i s = some (p, w)) : exec i s = outputTo w p i.opLength s := by
  cases i <;> simp only [isIn, Instr.isString, Bool.true_eq_false, transferOf, reduceCtorEq] at hi hs ht <;>
    (simp only [Option.some.injEq, Prod.mk.injEq] at ht; obtain ⟨rfl, rfl⟩ := ht; rfl)

theorem exec_of_insWidth {i : Instr} {w : Width} (h : insWidth i = some w) (s : State) :
    exec i s = repeated s (insElement w) := by
  cases i <;> simp only [insWidth, reduceCtorEq, Option.some.injEq] at h <;> (subst h; rfl)

theorem exec_of_outsWidth {i : Instr} {w : Width} (h : outsWidth i = some w) (s : State) :
    exec i s = repeated s (outsElement w) := by
  cases i <;> simp only [outsWidth, reduceCtorEq, Option.some.injEq] at h <;> (subst h; rfl)

theorem exec_of_isPrefix {i : Instr} (h : i.isPrefix = true) (s : State) :
    exec i s = notePrefix (s.prefixes.note i) s := by
  cases i <;> simp only [Instr.isPrefix, Bool.false_eq_true] at h <;> rfl

theorem isString_of_insWidth {i : Instr} {w : Width} (h : insWidth i = some w) : i.isString = true := by
  cases i <;> simp_all [insWidth, Instr.isString]

theorem isString_of_outsWidth {i : Instr} {w : Width} (h : outsWidth i = some w) : i.isString = true := by
  cases i <;> simp_all [outsWidth, Instr.isString]

/-- Every instruction that is no string instruction checks its length and its prefixes, before all else. -/
theorem exec_plain {i : Instr} (hp : i.isPrefix = false) (hs : i.isString = false) (s : State) :
    ∃ k, exec i s = plain i.opLength s k := by
  have input : ∀ {i : Instr} {p : Port} {w : Width}, isIn i = true → transferOf i s = some (p, w) →
      ∃ k, exec i s = plain i.opLength s k := fun hi ht => ⟨_, exec_of_isIn hi ht⟩
  have output : ∀ {i : Instr} {p : Port} {w : Width}, isIn i = false → i.isString = false →
      transferOf i s = some (p, w) → ∃ k, exec i s = plain i.opLength s k := fun hi hs ht => ⟨_, exec_of_isOut hi hs ht⟩
  cases i with
  | inAlImm _ | inAxImm _ | inEaxImm _ | inAlDx | inAxDx | inEaxDx => exact input rfl rfl
  | outImmAl _ | outImmAx _ | outImmEax _ | outDxAl | outDxAx | outDxEax => exact output rfl rfl rfl
  | insb | insw | insd | outsb | outsw | outsd => cases hs
  | cli => rw [exec, execCli]; exact ⟨_, rfl⟩
  | sti => rw [exec, execSti]; exact ⟨_, rfl⟩
  | popf => rw [exec, execPopf, popFlags]; exact ⟨_, rfl⟩
  | popfd => rw [exec, execPopfd, popFlags]; exact ⟨_, rfl⟩
  | rep | operandSize | addressSize | segEs | segCs | segSs | segDs | segFs | segGs => cases hp

/-- A string instruction is one of the two families. -/
theorem width_of_isString {i : Instr} (h : i.isString = true) :
    (∃ w, insWidth i = some w) ∨ ∃ w, outsWidth i = some w := by
  cases i <;> simp_all [insWidth, outsWidth, Instr.isString]

theorem opLength_of_isString {i : Instr} (h : i.isString = true) : i.opLength = 1 := by
  cases i <;> simp only [Instr.isString, Bool.false_eq_true] at h <;> rfl

/-- Every instruction checks its length and its prefixes, before all else. -/
theorem exec_accepting {i : Instr} (hp : i.isPrefix = false) (s : State) :
    ∃ k, exec i s = accepting i.opLength i.isString s k := by
  cases hs : i.isString
  · obtain ⟨k, hk⟩ := exec_plain hp hs s
    exact ⟨_, hk⟩
  · rw [opLength_of_isString hs]
    rcases width_of_isString hs with ⟨w, hw⟩ | ⟨w, hw⟩
    · exact ⟨_, exec_of_insWidth hw s⟩
    · exact ⟨_, exec_of_outsWidth hw s⟩

/-- One element of a string instruction has been transferred. -/
inductive Element (s : State) : Instr → State → Prop where
  | ins {i : Instr} {w : Width} {as : List Nat} (hi : insWidth i = some w) (hc : s.ioCheck s.dxPort w = .pass)
      (hp : s.dxPort.toNat + widthBytes w ≤ 65536) (ha : s.insLocations w = some as)
      (ho : s.overlapsText as = false) :
      Element s i (((s.portRead s.dxPort w).memWrite as (s.portValue w)).stepEdi w)
  | outs {i : Instr} {w : Width} {as : List Nat} (hi : outsWidth i = some w) (hc : s.ioCheck s.dxPort w = .pass)
      (hp : s.dxPort.toNat + widthBytes w ≤ 65536) (ha : s.outsLocations w = some as) :
      Element s i (((s.memRead as).portWrite s.dxPort w (s.memValue as)).stepEsi w)

/-- Everything an instruction can have done when it answers a next state. -/
inductive Ran (s : State) : Instr → State → Prop where
  | input {i : Instr} {p : Port} {w : Width} (hi : isIn i = true) (ht : transferOf i s = some (p, w))
      (hl : s.prefixes.count + i.opLength ≤ maxLength) (hr : Unrepeated s) (hc : s.ioCheck p w = .pass)
      (hp : p.toNat + widthBytes w ≤ 65536) :
      Ran s i (((s.portRead p w).setAccumulator w (s.portValue w)).complete i.opLength)
  | output {i : Instr} {p : Port} {w : Width} (hi : isIn i = false) (hs : i.isString = false)
      (ht : transferOf i s = some (p, w)) (hl : s.prefixes.count + i.opLength ≤ maxLength)
      (hr : Unrepeated s) (hc : s.ioCheck p w = .pass) (hp : p.toNat + widthBytes w ≤ 65536) :
      Ran s i ((s.portWrite p w (s.accumulator w)).complete i.opLength)
  | zeroCount {i : Instr} (hs : i.isString = true) (hl : s.prefixes.count + 1 ≤ maxLength)
      (hr : Repeated s) (h0 : s.repeatCount = 0) : Ran s i (s.complete 1)
  | single {i : Instr} {u : State} (hs : i.isString = true) (hl : s.prefixes.count + 1 ≤ maxLength)
      (hr : Unrepeated s) (hu : Element s i u) : Ran s i (u.complete 1)
  | last {i : Instr} {u : State} (hs : i.isString = true) (hl : s.prefixes.count + 1 ≤ maxLength)
      (hr : Repeated s) (h0 : s.repeatCount ≠ 0) (hu : Element s i u) :
      Ran s i ((u.setRepeatCount (u.repeatCount - 1)).complete 1)
  | more {i : Instr} {u : State} (hs : i.isString = true) (hl : s.prefixes.count + 1 ≤ maxLength)
      (hr : Repeated s) (h0 : s.repeatCount ≠ 0) (hu : Element s i u) :
      Ran s i (u.setRepeatCount (u.repeatCount - 1)).again
  | cli (hl : s.prefixes.count + 1 ≤ maxLength) (hr : Unrepeated s) (ha : s.sensitiveAllowed = true) :
      Ran s .cli ((s.setFlags (s.flags.withInterruptEnable false)).complete 1)
  | sti (hl : s.prefixes.count + 1 ≤ maxLength) (hr : Unrepeated s) (ha : s.sensitiveAllowed = true) :
      Ran s .sti ((s.setFlags (s.flags.withInterruptEnable true)).complete 1)
  | popf {i : Instr} (hi : i = .popf ∨ i = .popfd) (hl : s.prefixes.count + 1 ≤ maxLength)
      (hr : Unrepeated s) (hm : s.mode ≠ .virtual8086) :
      Ran s i (((s.dropAnswer.setFlags (s.poppedFlags s.nextAnswer)).setEsp
        (Config.stackPointerAfterPop s.draws)).complete 1)
  | prefixByte {i : Instr} (hi : i.isPrefix = true) (hl : s.prefixes.count + 2 ≤ maxLength) :
      Ran s i (s.setPrefixes (s.prefixes.note i))

/-- An instruction that is no string instruction runs after none of F3, F2 and F0. -/
theorem refusedOn_false {s : State} : s.prefixes.refusedOn false = none ↔ Unrepeated s := by
  rw [refusedOn_none]; simp; tauto

theorem insElement_element {i : Instr} {w : Width} {s u : State} (hi : insWidth i = some w)
    (h : insElement w s = .next u) : Element s i u := by
  obtain ⟨hc, hp, a, ha, ho, rfl⟩ := insElement_next h
  exact .ins hi hc hp ha ho

theorem outsElement_element {i : Instr} {w : Width} {s u : State} (hi : outsWidth i = some w)
    (h : outsElement w s = .next u) : Element s i u := by
  obtain ⟨hc, hp, a, ha, rfl⟩ := outsElement_next h
  exact .outs hi hc hp ha

theorem repeated_ran {i : Instr} {f : State → Result} {s t : State} (hs : i.isString = true)
    (hf : ∀ u, f s = .next u → Element s i u) (h : repeated s f = .next t) : Ran s i t := by
  obtain ⟨hl, hn, ⟨hr, h0, rfl⟩ | ⟨hr, u, hu, rfl⟩ | ⟨hr, h0, u, hu, ⟨_, rfl⟩ | ⟨_, rfl⟩⟩⟩ := repeated_next h <;>
    obtain ⟨h1, h2, _⟩ := refusedOn_none.1 hn
  · exact .zeroCount hs hl ⟨hr, h1, h2⟩ h0
  · exact .single hs hl ⟨hr, h1, h2⟩ (hf u hu)
  · exact .last hs hl ⟨hr, h1, h2⟩ h0 (hf u hu)
  · exact .more hs hl ⟨hr, h1, h2⟩ h0 (hf u hu)

/-- The inversion of exec, by the families of the opcode table. -/
theorem exec_next {i : Instr} {s t : State} (h : exec i s = .next t) : Ran s i t := by
  have io : ∀ {i : Instr} {p : Port} {w : Width}, transferOf i s = some (p, w) → i.isString = false →
      exec i s = .next t → Ran s i t := by
    intro i p w ht hs h
    cases hi : isIn i
    · rw [exec_of_isOut hi hs ht] at h
      obtain ⟨hl, hr, hc, hp, rfl⟩ := outputTo_next h
      exact .output hi hs ht hl (refusedOn_false.1 hr) hc hp
    · rw [exec_of_isIn hi ht] at h
      obtain ⟨hl, hr, hc, hp, rfl⟩ := inputFrom_next h
      exact .input hi ht hl (refusedOn_false.1 hr) hc hp
  have ins : ∀ {i : Instr} {w : Width}, insWidth i = some w → exec i s = .next t → Ran s i t := by
    intro i w hi h
    rw [exec_of_insWidth hi] at h
    exact repeated_ran (isString_of_insWidth hi) (fun u => insElement_element hi) h
  have outs : ∀ {i : Instr} {w : Width}, outsWidth i = some w → exec i s = .next t → Ran s i t := by
    intro i w hi h
    rw [exec_of_outsWidth hi] at h
    exact repeated_ran (isString_of_outsWidth hi) (fun u => outsElement_element hi) h
  have pre : ∀ {i : Instr}, i.isPrefix = true → exec i s = .next t → Ran s i t := by
    intro i hi h
    rw [exec_of_isPrefix hi] at h
    obtain ⟨hl, rfl⟩ := notePrefix_next h
    exact .prefixByte hi hl
  cases i with
  | inAlImm _ | inAxImm _ | inEaxImm _ | inAlDx | inAxDx | inEaxDx => exact io rfl rfl h
  | outImmAl _ | outImmAx _ | outImmEax _ | outDxAl | outDxAx | outDxEax => exact io rfl rfl h
  | insb | insw | insd => exact ins rfl h
  | outsb | outsw | outsd => exact outs rfl h
  | cli =>
    rw [exec, execCli] at h
    obtain ⟨hl, hr, h⟩ := plain_next h
    obtain ⟨ha, h⟩ := sensitive_next h
    cases h
    exact .cli hl (refusedOn_false.1 hr) ha
  | sti =>
    rw [exec, execSti] at h
    obtain ⟨hl, hr, h⟩ := plain_next h
    obtain ⟨ha, h⟩ := sensitive_next h
    cases h
    exact .sti hl (refusedOn_false.1 hr) ha
  | popf =>
    obtain ⟨hl, hr, hm, rfl⟩ := popFlags_next h
    exact .popf (.inl rfl) hl (refusedOn_false.1 hr) hm
  | popfd =>
    obtain ⟨hl, hr, hm, rfl⟩ := popFlags_next h
    exact .popf (.inr rfl) hl (refusedOn_false.1 hr) hm
  | rep | operandSize | addressSize => exact pre rfl h
  | segEs | segCs | segSs | segDs | segFs | segGs => exact pre rfl h

/-- A step that answers a next state is the meaning of the instruction it fetched, or has read F2 or F0. -/
theorem step_next {s t : State} (h : step s = .next t) :
    (∃ i, s.fetch = .ok i ∧ exec i s = .next t) ∨
      s.prefixes.count + 2 ≤ maxLength ∧
        (s.fetch = .error .repnePrefix ∧ t = s.setPrefixes s.prefixes.noteRepne ∨
          s.fetch = .error .lockPrefix ∧ t = s.setPrefixes s.prefixes.noteLock) := by
  unfold step at h
  split at h
  · rename_i i hi; exact .inl ⟨i, hi, h⟩
  · rename_i e he
    cases e with
    | repnePrefix => obtain ⟨hl, ht⟩ := notePrefix_next h; exact .inr ⟨hl, .inl ⟨he, ht⟩⟩
    | lockPrefix => obtain ⟨hl, ht⟩ := notePrefix_next h; exact .inr ⟨hl, .inr ⟨he, ht⟩⟩
    | opcodeNotInScope b => cases h
    | repOnNonString => cases h
    | missingByte => cases h

/-- A run of one step more is a step and then the run. -/
theorem run_succ (k : Nat) (s : State) :
    Host.Core.run Sys2Proof.core (k + 1) s = andThen (step s) fun t => Host.Core.run Sys2Proof.core k t := by
  have h : core.step s = step s := rfl
  cases hs : step s with
  | next t => simp only [Host.Core.run, h, hs, andThen]
  | fault e => simp only [Host.Core.run, h, hs, andThen]; rfl
  | refused e => simp only [Host.Core.run, h, hs, andThen]; rfl

end Sys2Proof.Machine
end

