-- ==== Sys2Proof/Laws/PerInstr.lean ====
section
/-! SUPPORT. The family Encoded, one lemma per constructor of Instr. -/

namespace Sys2Proof.Laws

/-- A row exists at one operand size at least, has no more than one byte after its opcode (30_encoding.md R71), and is
one byte where it is a prefix or a string row. -/
def Encoded.Statement (i : Instr) : Prop :=
  (∃ sz, i.wf sz = true) ∧ 1 ≤ i.opLength ∧ i.opLength ≤ 2 ∧
    (i.isPrefix = true ∨ i.isString = true → i.opLength = 1)

theorem Encoded.inAlImm (ib : Byte) : Encoded.Statement (.inAlImm ib) :=
  ⟨⟨.s16, rfl⟩, Nat.le_of_ble_eq_true rfl, Nat.le_of_ble_eq_true rfl, fun h => by rcases h with h | h <;> cases h⟩

theorem Encoded.inAxImm (ib : Byte) : Encoded.Statement (.inAxImm ib) :=
  ⟨⟨.s16, rfl⟩, Nat.le_of_ble_eq_true rfl, Nat.le_of_ble_eq_true rfl, fun h => by rcases h with h | h <;> cases h⟩

theorem Encoded.inEaxImm (ib : Byte) : Encoded.Statement (.inEaxImm ib) :=
  ⟨⟨.s32, rfl⟩, Nat.le_of_ble_eq_true rfl, Nat.le_of_ble_eq_true rfl, fun h => by rcases h with h | h <;> cases h⟩

theorem Encoded.inAlDx : Encoded.Statement .inAlDx :=
  ⟨⟨.s16, rfl⟩, Nat.le_of_ble_eq_true rfl, Nat.le_of_ble_eq_true rfl, fun _ => rfl⟩

theorem Encoded.inAxDx : Encoded.Statement .inAxDx :=
  ⟨⟨.s16, rfl⟩, Nat.le_of_ble_eq_true rfl, Nat.le_of_ble_eq_true rfl, fun _ => rfl⟩

theorem Encoded.inEaxDx : Encoded.Statement .inEaxDx :=
  ⟨⟨.s32, rfl⟩, Nat.le_of_ble_eq_true rfl, Nat.le_of_ble_eq_true rfl, fun _ => rfl⟩

theorem Encoded.outImmAl (ib : Byte) : Encoded.Statement (.outImmAl ib) :=
  ⟨⟨.s16, rfl⟩, Nat.le_of_ble_eq_true rfl, Nat.le_of_ble_eq_true rfl, fun h => by rcases h with h | h <;> cases h⟩

theorem Encoded.outImmAx (ib : Byte) : Encoded.Statement (.outImmAx ib) :=
  ⟨⟨.s16, rfl⟩, Nat.le_of_ble_eq_true rfl, Nat.le_of_ble_eq_true rfl, fun h => by rcases h with h | h <;> cases h⟩

theorem Encoded.outImmEax (ib : Byte) : Encoded.Statement (.outImmEax ib) :=
  ⟨⟨.s32, rfl⟩, Nat.le_of_ble_eq_true rfl, Nat.le_of_ble_eq_true rfl, fun h => by rcases h with h | h <;> cases h⟩

theorem Encoded.outDxAl : Encoded.Statement .outDxAl :=
  ⟨⟨.s16, rfl⟩, Nat.le_of_ble_eq_true rfl, Nat.le_of_ble_eq_true rfl, fun _ => rfl⟩

theorem Encoded.outDxAx : Encoded.Statement .outDxAx :=
  ⟨⟨.s16, rfl⟩, Nat.le_of_ble_eq_true rfl, Nat.le_of_ble_eq_true rfl, fun _ => rfl⟩

theorem Encoded.outDxEax : Encoded.Statement .outDxEax :=
  ⟨⟨.s32, rfl⟩, Nat.le_of_ble_eq_true rfl, Nat.le_of_ble_eq_true rfl, fun _ => rfl⟩

theorem Encoded.insb : Encoded.Statement .insb :=
  ⟨⟨.s16, rfl⟩, Nat.le_of_ble_eq_true rfl, Nat.le_of_ble_eq_true rfl, fun _ => rfl⟩

theorem Encoded.insw : Encoded.Statement .insw :=
  ⟨⟨.s16, rfl⟩, Nat.le_of_ble_eq_true rfl, Nat.le_of_ble_eq_true rfl, fun _ => rfl⟩

theorem Encoded.insd : Encoded.Statement .insd :=
  ⟨⟨.s32, rfl⟩, Nat.le_of_ble_eq_true rfl, Nat.le_of_ble_eq_true rfl, fun _ => rfl⟩

theorem Encoded.outsb : Encoded.Statement .outsb :=
  ⟨⟨.s16, rfl⟩, Nat.le_of_ble_eq_true rfl, Nat.le_of_ble_eq_true rfl, fun _ => rfl⟩

theorem Encoded.outsw : Encoded.Statement .outsw :=
  ⟨⟨.s16, rfl⟩, Nat.le_of_ble_eq_true rfl, Nat.le_of_ble_eq_true rfl, fun _ => rfl⟩

theorem Encoded.outsd : Encoded.Statement .outsd :=
  ⟨⟨.s32, rfl⟩, Nat.le_of_ble_eq_true rfl, Nat.le_of_ble_eq_true rfl, fun _ => rfl⟩

theorem Encoded.cli : Encoded.Statement .cli :=
  ⟨⟨.s16, rfl⟩, Nat.le_of_ble_eq_true rfl, Nat.le_of_ble_eq_true rfl, fun _ => rfl⟩

theorem Encoded.sti : Encoded.Statement .sti :=
  ⟨⟨.s16, rfl⟩, Nat.le_of_ble_eq_true rfl, Nat.le_of_ble_eq_true rfl, fun _ => rfl⟩

theorem Encoded.popf : Encoded.Statement .popf :=
  ⟨⟨.s16, rfl⟩, Nat.le_of_ble_eq_true rfl, Nat.le_of_ble_eq_true rfl, fun _ => rfl⟩

theorem Encoded.popfd : Encoded.Statement .popfd :=
  ⟨⟨.s32, rfl⟩, Nat.le_of_ble_eq_true rfl, Nat.le_of_ble_eq_true rfl, fun _ => rfl⟩

theorem Encoded.rep : Encoded.Statement .rep :=
  ⟨⟨.s16, rfl⟩, Nat.le_of_ble_eq_true rfl, Nat.le_of_ble_eq_true rfl, fun _ => rfl⟩

theorem Encoded.operandSize : Encoded.Statement .operandSize :=
  ⟨⟨.s16, rfl⟩, Nat.le_of_ble_eq_true rfl, Nat.le_of_ble_eq_true rfl, fun _ => rfl⟩

theorem Encoded.addressSize : Encoded.Statement .addressSize :=
  ⟨⟨.s16, rfl⟩, Nat.le_of_ble_eq_true rfl, Nat.le_of_ble_eq_true rfl, fun _ => rfl⟩

theorem Encoded.segEs : Encoded.Statement .segEs :=
  ⟨⟨.s16, rfl⟩, Nat.le_of_ble_eq_true rfl, Nat.le_of_ble_eq_true rfl, fun _ => rfl⟩

theorem Encoded.segCs : Encoded.Statement .segCs :=
  ⟨⟨.s16, rfl⟩, Nat.le_of_ble_eq_true rfl, Nat.le_of_ble_eq_true rfl, fun _ => rfl⟩

theorem Encoded.segSs : Encoded.Statement .segSs :=
  ⟨⟨.s16, rfl⟩, Nat.le_of_ble_eq_true rfl, Nat.le_of_ble_eq_true rfl, fun _ => rfl⟩

theorem Encoded.segDs : Encoded.Statement .segDs :=
  ⟨⟨.s16, rfl⟩, Nat.le_of_ble_eq_true rfl, Nat.le_of_ble_eq_true rfl, fun _ => rfl⟩

theorem Encoded.segFs : Encoded.Statement .segFs :=
  ⟨⟨.s16, rfl⟩, Nat.le_of_ble_eq_true rfl, Nat.le_of_ble_eq_true rfl, fun _ => rfl⟩

theorem Encoded.segGs : Encoded.Statement .segGs :=
  ⟨⟨.s16, rfl⟩, Nat.le_of_ble_eq_true rfl, Nat.le_of_ble_eq_true rfl, fun _ => rfl⟩

end Sys2Proof.Laws
end

