-- ==== Sys2Proof/Laws/Rules.lean ====
section
/-! SUPPORT. The operand forms, the guards and the protection check, each said once in the terms of Safety.lean. -/

namespace Sys2Proof.Machine

/-- A transfer moves the low bits of its width. -/
theorem truncTo_eq (w : Width) (v : Word) : truncTo w v = v &&& maskOf w := by
  cases w <;> simp only [truncTo, maskOf]
  · ext i hi; simp
    rcases Nat.lt_or_ge i 8 with h | h
    · have : i = 0 ∨ i = 1 ∨ i=2 ∨ i=3 ∨ i=4∨ i=5 ∨ i=6 ∨ i=7 := by omega
      rcases this with rfl|rfl|rfl|rfl|rfl|rfl|rfl|rfl <;> simp
    · interval_cases i <;> simp
  · ext i hi; simp
    interval_cases i <;> simp
  · ext i hi; simp
    interval_cases i <;> simp

/-- Writing a narrow name keeps the other bits of the wide register (10_state.md R10). -/
theorem insertLow_eq (w : Width) (o v : Word) : insertLow w o v = merged (maskOf w) o v := by
  cases w <;> simp only [insertLow, maskOf, merged]
  · ext i hi; rw [BitVec.getElem_append]; simp
    interval_cases i <;> simp
  · ext i hi; rw [BitVec.getElem_append]; simp
    interval_cases i <;> simp
  · ext i hi; simp
    interval_cases i <;> simp

/-- A register read at an address size. -/
theorem sizedRead_eq (a : SizeAttr) (r : Word) : sizedRead a r = r &&& sizeMask a := by
  cases a
  · exact truncTo_eq .word r
  · exact truncTo_eq .dword r

/-- A register written at an address size. -/
theorem sizedWrite_eq (a : SizeAttr) (r v : Word) : sizedWrite a r v = merged (sizeMask a) r v := by
  cases a
  · exact insertLow_eq .word r v
  · exact insertLow_eq .dword r v

/-- The width in bytes, in either spelling. -/
theorem widthBytes_eq (w : Width) : widthBytes w = bytesOf w := by cases w <;> rfl

/-- The index register after one element (41_block_io.md R120, R130). -/
theorem steppedIndex_eq (a : SizeAttr) (down : Bool) (w : Width) (r : Word) :
    steppedIndex a down w r = merged (sizeMask a) r (stepped down r 1 (bytesOf w)) := by
  unfold steppedIndex stepped
  simp only [sizedWrite_eq, sizedRead_eq, Nat.one_mul, widthBytes_eq]
  cases a
  · simp only [merged, sizeMask]
    congr 1
    have key : ∀ n : Word, ((r &&& 0xFFFF) + n) &&& 0xFFFF = (r + n) &&& 0xFFFF ∧
        ((r &&& 0xFFFF) - n) &&& 0xFFFF = (r - n) &&& 0xFFFF := by
      intro n
      have m : ∀ x : Word, (x &&& 0xFFFF).toNat = x.toNat % 65536 := by
        intro x; rw [BitVec.toNat_and]; exact Nat.and_two_pow_sub_one_eq_mod x.toNat 16
      constructor
      · apply BitVec.eq_of_toNat_eq
        simp only [m, BitVec.toNat_add]; omega
      · apply BitVec.eq_of_toNat_eq
        have := n.isLt; have := r.isLt
        simp only [m, BitVec.toNat_sub]; omega
    cases down
    · exact (key _).1
    · exact (key _).2
  · have : ∀ x : Word, x &&& 0xFFFFFFFF = x := by
      intro x
      apply BitVec.eq_of_toNat_eq
      rw [BitVec.toNat_and]
      exact (Nat.and_two_pow_sub_one_eq_mod x.toNat 32).trans (Nat.mod_eq_of_lt x.isLt)
    simp only [merged, sizeMask, this]

/-- A wide load from plain memory is little-endian (92_eei_decisions.md D5), whatever the environment would answer. -/
theorem loadLE_eq (dev : Nat → Bool) (m : Memory) (ans : Word) {as : List Nat} (h : ∀ a ∈ as, dev a = false) :
    Memory.loadLE dev m as ans = littleEndian m as := by
  induction as generalizing ans with
  | nil => rfl
  | cons a as ih =>
    rw [List.forall_mem_cons] at h
    rw [Memory.loadLE, ih _ h.2, h.1]
    unfold littleEndian
    rw [List.foldr_cons]
    generalize List.foldr (fun a v => (Memory.read m a).toNat + 256 * v) 0 as = v
    have hb : (Memory.read m a).toNat < 2 ^ 8 := (Memory.read m a).isLt
    apply BitVec.eq_of_toNat_eq
    simp only [Bool.false_eq_true, if_false, BitVec.toNat_or, BitVec.toNat_shiftLeft, BitVec.toNat_ofNat,
      BitVec.toNat_setWidth]
    rw [Nat.mod_eq_of_lt (show (Memory.read m a).toNat < 2 ^ 32 by omega),
      show (v % 2 ^ 32) <<< 8 % 2 ^ 32 = (v % 2 ^ 24) <<< 8 by simp only [Nat.shiftLeft_eq]; omega,
      ← Nat.shiftLeft_add_eq_or_of_lt hb, Nat.shiftLeft_eq]
    omega

/-- An instruction that is not too long and has no F3, F2 or F0 before it goes on. -/
theorem accepting_of_unrepeated {n b s k} (h : s.prefixes.count + n ≤ 15) (hr : Unrepeated s) :
    accepting n b s k = k s := by
  unfold accepting withinLength maxLength
  rw [if_neg (by omega)]
  dsimp only
  rw [refusedOn_none.2 ⟨hr.2.1, hr.2.2, by simp [hr.1]⟩]

theorem plain_of_accepted {n s k} (h : s.prefixes.count + n ≤ 15) (hr : Unrepeated s) :
    plain n s k = k s := accepting_of_unrepeated h hr

/-- A string instruction that is not too long goes on after F3 too. -/
theorem accepting_of_repeated {n s k} (h : s.prefixes.count + n ≤ 15) (hr : Repeated s) :
    accepting n true s k = k s := by
  unfold accepting withinLength maxLength
  rw [if_neg (by omega)]
  dsimp only
  rw [refusedOn_none.2 ⟨hr.2.1, hr.2.2, fun _ => rfl⟩]

/-- A transfer that passes the check and exists goes on. -/
theorem guarded_of_pass {p w s k} (h : s.ioCheck p w = .pass) (hp : p.toNat + bytesOf w - 1 ≤ 65535) :
    guarded p w s k = k s := by
  unfold guarded; rw [h, widthBytes_eq]; dsimp only
  rw [if_neg (by omega)]

/-- A span past port 65535 that no check denies is refused. -/
theorem guarded_of_span {p w s k} (h : s.ioCheck p w = .pass) (hp : 65535 < p.toNat + bytesOf w - 1) :
    guarded p w s k = .refused .portSpanPastTop := by
  unfold guarded; rw [h, widthBytes_eq]; dsimp only
  rw [if_pos (by omega)]

/-- A transfer that the check denies raises the exception. -/
theorem guarded_of_deny {p w s k} (h : s.ioCheck p w = .deny) :
    guarded p w s k = .fault (.generalProtection (.port p w)) := by
  unfold guarded; rw [h]; rfl

/-- The I/O map base, byte by byte (10_state.md R27). -/
theorem ioMapBase_eq (s : State) : s.ioMapBase = mapBase s := by
  unfold State.ioMapBase mapBase State.tssRead ioMapBaseOffset
  simp only [Memory.readLE]
  rw [show s.tssBase.toNat + 102 + 1 = s.tssBase.toNat + 103 by omega]
  generalize Memory.read s.mem (s.tssBase.toNat + 103) = a
  generalize Memory.read s.mem (s.tssBase.toNat + 102) = b
  simp only [BitVec.toNat_append, BitVec.toNat_or, BitVec.toNat_shiftLeft, BitVec.toNat_setWidth]
  have ha := a.isLt; have hb := b.isLt
  rw [Nat.mod_eq_of_lt (show a.toNat < 2^32 by omega), Nat.mod_eq_of_lt (show b.toNat < 2^32 by omega)]
  simp only [BitVec.toNat_zero, BitVec.ofNat_eq_ofNat, Nat.shiftLeft_eq]
  simp
  rw [Nat.mod_eq_of_lt (by omega)]

/-- The bit of the map for a port (10_state.md R28). -/
theorem tssRead_bit_eq (s : State) (a : Nat) : (s.tssRead (s.ioMapBase + a / 8) 1).getLsbD (a % 8) = mapBit s a := by
  unfold mapBit State.tssRead
  rw [Memory.readLE_one, ioMapBase_eq, ← Nat.add_assoc]
  simp [BitVec.getLsbD_setWidth]; omega

/-- When one port of the span is denied (60_exceptions.md R164 to R166). -/
theorem portDenied_iff (s : State) (a : Nat) : s.portDenied a = true ↔ ¬ inMap s a ∨ mapBit s a = true := by
  unfold State.portDenied
  simp only [tssRead_bit_eq]
  simp only [Bool.or_eq_true, decide_eq_true_eq, ioMapBase_eq, inMap]
  constructor
  · rintro ((h | h) | h)
    · left; omega
    · left; omega
    · exact .inr h
  · rintro (h | h)
    · left
      by_contra hc; apply h; omega
    · exact .inr h

/-- Where the map decides, the check is the map (60_exceptions.md R164). -/
theorem ioCheck_of_mapDecides {s : State} (h : mapDecides s) (p w) : s.ioCheck p w = s.consultMap p w := by
  unfold State.ioCheck
  rcases h with ⟨h, hc⟩ | h
  · rw [h]; simp only [State.cplWithinIopl, State.currentCpl, h]
    rw [if_neg]; simp; exact hc
  · rw [h]

/-- Where the map does not decide, the check passes (60_exceptions.md R161, R162). -/
theorem ioCheck_of_not_mapDecides {s : State} (h : ¬ mapDecides s) (p w) : s.ioCheck p w = .pass := by
  unfold State.ioCheck
  cases hm : s.mode with
  | realMode => rfl
  | protectedMode =>
    simp only [State.cplWithinIopl, State.currentCpl, hm]
    rw [if_pos]
    have : ¬ s.flags.iopl < s.cpl := fun hc => h (.inl ⟨hm, hc⟩)
    simpa using this
  | virtual8086 => exact absurd (.inr hm) h

end Sys2Proof.Machine
end

