-- ==== Sys2Proof/Tests/Slice0.lean ====
section
/-! SUPPORT. Tests on fixed values, their expected results from the vectors of 95_test_vectors.md (named V-...) or from
the rule named, and for every statement with hypotheses a witness that meets them. -/

namespace Sys2Proof.Tests

open Sys2Proof.Machine

/-! ### Helpers -/

/-- "every segment the same": flat, with all rights (92_eei_decisions.md D9). -/
def flat : SegReg := { selector := 0, base := 0, limit := 0xFFFFFFFF, readable := true, writable := true }

/-- A real-mode launch at `pc` 0 with flat segments and no program. -/
def bare : State :=
  { State.reset with pc := 0, edx := 0, es := flat, cs := flat, ss := flat, ds := flat, fs := flat, gs := flat }

/-- The launch `s` with the program at `pc` 0 and the environment's answers. -/
def launch (s : State) (size : SizeAttr) (program : List Byte) (answers : List Word) : State :=
  ({ s with inputs := answers, cfg := { s.cfg with defaultSize := size } } : State).loadedWith program

/-- A byte of the map of the TSS fixture of 95_test_vectors.md 2.5. -/
def fixtureByte (k : Nat) : Byte :=
  if k = 0 then 0x00 else if k = 1 then 0xFE else if k = 8 then 0xF0 else if k = 31 then 0x3F else 0xFF

/-- The TSS fixture: base 0x20000, the I/O map base field 0x68, the map behind it. -/
def fixtureMem : Memory :=
  (0x20066, 0x68) :: ((List.range 32).map fun k => (0x20068 + k, fixtureByte k)).filter fun c => c.2 != 0

/-- The flags with DF = 1. -/
def downward : Flags := { direction := true, interruptEnable := false, iopl := 0 }

/-- Protected mode at CPL 3 and IOPL 0 with the TSS fixture. -/
def guest : State :=
  { bare with mode := .protectedMode, cpl := 3, tssBase := 0x20000, tssLimit := 0x87, mem := fixtureMem }

/-- Virtual 8086 mode with the TSS fixture. -/
def v86 : State := { guest with mode := .virtual8086 }

/-- The fixture with the I/O map base equal to the TSS limit (V-P7). -/
def noMap : State := { guest with mem := [(0x20066, 0x87)] }

/-- The fixture under IOPB_FETCH_BYTES = 2. -/
def guest2 : State := { guest with cfg := { guest.cfg with iopbFetch := .two } }

/-- `n` steps come to a state with `p`. -/
def reaches (n : Nat) (s : State) (p : State → Bool) : Bool :=
  match Host.Core.run core n s with
  | .next t => p t
  | .fault _ => false
  | .refused _ => false

/-- `n` steps come to the fault `e`. -/
def faults (n : Nat) (s : State) (e : Fault) : Bool :=
  match Host.Core.run core n s with
  | .next _ => false
  | .fault e' => e == e'
  | .refused _ => false

/-- `n` steps come to the refusal `e`. -/
def refuses (n : Nat) (s : State) (e : Refusal) : Bool :=
  match Host.Core.run core n s with
  | .next _ => false
  | .fault _ => false
  | .refused e' => e == e'

/-- `exec` answers a next state. -/
def completes (i : Instr) (s : State) : Bool :=
  match exec i s with
  | .next _ => true
  | .fault _ => false
  | .refused _ => false

theorem next_of_completes {i : Instr} {s : State} (h : completes i s = true) : ∃ t, exec i s = .next t := by
  unfold completes at h
  split at h
  · exact ⟨_, by assumption⟩
  · cases h
  · cases h

theorem next_of_reaches {s : State} {p : State → Bool} (h : reaches 1 s p = true) :
    ∃ t, step s = .next t ∧ p t = true := by
  unfold reaches at h
  split at h
  · rename_i t ht
    refine ⟨t, ?_, h⟩
    rw [run_succ] at ht
    cases hs : step s with
    | next u => rw [hs] at ht; exact ht
    | fault e => rw [hs] at ht; cases ht
    | refused e => rw [hs] at ht; cases ht
  · cases h
  · cases h

/-- The bytes stand at the next fetch, by a check that can be evaluated. -/
theorem fetches_of {s : State} {bs : List Byte}
    (h : ∀ k < bs.length, s.inText (s.fetchOffset + k) = true ∧
      Memory.read s.mem (s.cs.base.toNat + (s.fetchOffset + k)) = bs.getD k 0) : s.FetchesBytes bs := by
  intro k b hk
  obtain ⟨hl, hb⟩ := List.getElem?_eq_some_iff.1 hk
  obtain ⟨h1, h2⟩ := h k hl
  exact ⟨h1, by rw [h2, List.getD_eq_getElem?_getD, hk]; rfl⟩

/-! ### WellFormed: every check, and an ill-formed term it refuses -/

theorem test_wf_word_rows_need_size_16 :
    (Instr.inAxImm 0x10).wf .s32 = false ∧ Instr.inAxDx.wf .s32 = false ∧ (Instr.outImmAx 0x10).wf .s32 = false ∧
      Instr.outDxAx.wf .s32 = false ∧ Instr.insw.wf .s32 = false ∧ Instr.outsw.wf .s32 = false ∧
      Instr.popf.wf .s32 = false ∧ Instr.insw.wf .s16 = true := by decide

theorem test_wf_doubleword_rows_need_size_32 :
    (Instr.inEaxImm 0x10).wf .s16 = false ∧ Instr.inEaxDx.wf .s16 = false ∧ (Instr.outImmEax 0x10).wf .s16 = false ∧
      Instr.outDxEax.wf .s16 = false ∧ Instr.insd.wf .s16 = false ∧ Instr.outsd.wf .s16 = false ∧
      Instr.popfd.wf .s16 = false ∧ Instr.insd.wf .s32 = true := by decide

/-! ### Decoding: every row's bytes, written out from 30_encoding.md R76 -/

theorem test_decode_in :
    decode .s16 [0xE4, 0x60] = .ok (.inAlImm 0x60) ∧ decode .s16 [0xE5, 0x10] = .ok (.inAxImm 0x10) ∧
      decode .s32 [0xE5, 0x10] = .ok (.inEaxImm 0x10) ∧ decode .s32 [0xEC] = .ok .inAlDx ∧
      decode .s16 [0xED] = .ok .inAxDx ∧ decode .s32 [0xED] = .ok .inEaxDx := by decide

theorem test_decode_out :
    decode .s32 [0xE6, 0xFF] = .ok (.outImmAl 0xFF) ∧ decode .s16 [0xE7, 0x70] = .ok (.outImmAx 0x70) ∧
      decode .s32 [0xE7, 0x80] = .ok (.outImmEax 0x80) ∧ decode .s16 [0xEE] = .ok .outDxAl ∧
      decode .s16 [0xEF] = .ok .outDxAx ∧ decode .s32 [0xEF] = .ok .outDxEax := by decide

theorem test_decode_block :
    decode .s32 [0x6C] = .ok .insb ∧ decode .s16 [0x6D] = .ok .insw ∧ decode .s32 [0x6D] = .ok .insd ∧
      decode .s16 [0x6E] = .ok .outsb ∧ decode .s16 [0x6F] = .ok .outsw ∧ decode .s32 [0x6F] = .ok .outsd := by decide

theorem test_decode_flag_instructions :
    decode .s16 [0xFA] = .ok .cli ∧ decode .s32 [0xFB] = .ok .sti ∧ decode .s16 [0x9D] = .ok .popf ∧
      decode .s32 [0x9D] = .ok .popfd := by decide

theorem test_decode_prefixes :
    decode .s16 [0xF3] = .ok .rep ∧ decode .s32 [0x66] = .ok .operandSize ∧ decode .s16 [0x67] = .ok .addressSize ∧
      decode .s16 [0x26] = .ok .segEs ∧ decode .s16 [0x2E] = .ok .segCs ∧ decode .s16 [0x36] = .ok .segSs ∧
      decode .s16 [0x3E] = .ok .segDs ∧ decode .s16 [0x64] = .ok .segFs ∧ decode .s16 [0x65] = .ok .segGs := by decide

/-- R77, R78: what is rejected, each by its name. -/
theorem test_decode_rejects :
    decode .s16 [0x90] = .error (.opcodeNotInScope 0x90) ∧ decode .s16 [0xF2, 0x6C] = .error .repnePrefix ∧
      decode .s16 [0xF0, 0xEE] = .error .lockPrefix ∧ decode .s16 [0xE4] = .error .missingByte ∧
      decode .s16 [] = .error .missingByte := by decide

/-- V-D3, V-D4, V-D6, V-D9, V-D11: the prefixes and the sizes they leave. -/
theorem test_decode_whole :
    decodeWhole .s16 Prefixes.none [0x66, 0xE5, 0x10] =
        .ok ({ rep := false, opToggle := true, adToggle := false, seg := none, count := 1 }, .inEaxImm 0x10) ∧
      decodeWhole .s32 Prefixes.none [0x66, 0xE5, 0x10] =
        .ok ({ rep := false, opToggle := true, adToggle := false, seg := none, count := 1 }, .inAxImm 0x10) ∧
      decodeWhole .s16 Prefixes.none [0x66, 0x66, 0xED] =
        .ok ({ rep := false, opToggle := true, adToggle := false, seg := none, count := 2 }, .inEaxDx) ∧
      decodeWhole .s16 Prefixes.none [0xF3, 0x67, 0x66, 0x6F] =
        .ok ({ rep := true, opToggle := true, adToggle := true, seg := none, count := 3 }, .outsd) ∧
      decodeWhole .s16 Prefixes.none [0x2E, 0x6E] =
        .ok ({ rep := false, opToggle := false, adToggle := false, seg := some .cs, count := 1 }, .outsb) := by decide

/-- V-D16, and R81 (5): the opcode is looked up before a prefix is refused. -/
theorem test_decode_whole_refusals :
    decodeWhole .s16 Prefixes.none [0xF3, 0xE4, 0x60] = .error .repOnNonString ∧
      decodeWhole .s16 Prefixes.none [0xF2, 0x6C] = .error .repnePrefix ∧
      decodeWhole .s16 Prefixes.none [0xF0, 0xEE] = .error .lockPrefix ∧
      decodeWhole .s16 Prefixes.none [0xF2, 0xAE] = .error (.opcodeNotInScope 0xAE) := by decide

theorem test_encode :
    encode (.inAlImm 0x60) = [0xE4, 0x60] ∧ encode (.outImmEax 0x80) = [0xE7, 0x80] ∧ encode .insd = [0x6D] ∧
      encode .popfd = [0x9D] ∧ encode .segGs = [0x65] := by decide

/-! ### The host's two questions -/

/-- A word of the table, laid out with its first byte lowest: `E6 2A` is 0x2AE6. -/
theorem test_table_word :
    decodeTableWord 16 0x2AE6 = some (.outImmAl 0x2A) ∧ decodeTableWord 8 0xE4 = some (.inAlImm 0) ∧
      decodeTableWord 8 0x65 = some .segGs ∧ decodeTableWord 8 0x90 = none := by decide

theorem test_fetch_word :
    (State.reset.withFetchWord 16 0x2AE6).fetch = .ok (.outImmAl 0x2A) ∧
      (State.reset.withFetchWord 8 0xF3).fetch = .ok .rep ∧
      (State.reset.withFetchWord 8 0xFB).fetch = .ok .sti := by decide

theorem test_fetch_word_runs :
    reaches 1 (State.reset.withFetchWord 8 0xFB) (fun t => t.flags.interruptEnable && t.pc == 0xFFF1) = true := by decide

/-! ### Register I/O (vectors V-R) -/

/-- V-R1: the other 24 bits of EAX are kept. -/
theorem test_in_al_imm :
    reaches 1 (launch { bare with eax := 0x11223344 } .s16 [0xE4, 0x60] [0xAB])
      (fun t => t.eax == 0x112233AB && t.pc == 2 && t.events == [.portRead 0x60 .byte 0xAB]) = true := by decide

/-- V-R2: misaligned, and past port 255. -/
theorem test_in_ax_imm :
    reaches 1 (launch { bare with eax := 0x11223344 } .s16 [0xE5, 0xFF] [0x1234])
      (fun t => t.eax == 0x11221234 && t.events == [.portRead 0xFF .word 0x1234]) = true := by decide

/-- V-R3. -/
theorem test_in_eax_imm :
    reaches 1 (launch bare .s32 [0xE5, 0xFC] [0xDEADBEEF])
      (fun t => t.eax == 0xDEADBEEF && t.pc == 2 && t.events == [.portRead 0xFC .dword 0xDEADBEEF]) = true := by decide

/-- V-R4: the upper half of EDX is ignored. -/
theorem test_in_al_dx :
    reaches 1 (launch { bare with eax := 0xFFFFFF00, edx := 0xABCD03F8 } .s16 [0xEC] [0x41])
      (fun t => t.eax == 0xFFFFFF41 && t.edx == 0xABCD03F8 && t.pc == 1) = true := by decide

/-- V-R5. -/
theorem test_in_ax_dx :
    reaches 1 (launch { bare with eax := 0xFFFFFFFF, edx := 0x1F0 } .s16 [0xED] [0xABCD])
      (fun t => t.eax == 0xFFFFABCD && t.events == [.portRead 0x1F0 .word 0xABCD]) = true := by decide

/-- V-R6: the last 32-bit port. -/
theorem test_in_eax_dx :
    reaches 1 (launch { bare with edx := 0xFFFC } .s32 [0xED] [0x01020304])
      (fun t => t.eax == 0x01020304 && t.pc == 1) = true := by decide

/-- V-R7, V-R8, V-R17: a span past port 65535 is refused. -/
theorem test_span_refused :
    refuses 1 (launch { bare with edx := 0xFFFF } .s16 [0xED] [0]) .portSpanPastTop = true ∧
      refuses 1 (launch { bare with edx := 0xFFFD } .s32 [0xED] [0]) .portSpanPastTop = true ∧
      refuses 1 (launch { bare with edx := 0xFFFF } .s16 [0xEF] [0]) .portSpanPastTop = true := by decide

/-- V-R11: the accumulator is not written. -/
theorem test_out_imm_al :
    reaches 1 (launch { bare with eax := 0xAABBCCDD } .s16 [0xE6, 0x80] [])
      (fun t => t.eax == 0xAABBCCDD && t.pc == 2 && t.events == [.portWrite 0x80 .byte 0xDD]) = true := by decide

/-- V-R12. -/
theorem test_out_imm_ax :
    reaches 1 (launch { bare with eax := 0xAABBCCDD } .s16 [0xE7, 0x70] [])
      (fun t => t.pc == 2 && t.events == [.portWrite 0x70 .word 0xCCDD]) = true := by decide

/-- V-R13. -/
theorem test_out_imm_eax :
    reaches 1 (launch { bare with eax := 0xAABBCCDD } .s32 [0xE7, 0x80] [])
      (fun t => t.pc == 2 && t.events == [.portWrite 0x80 .dword 0xAABBCCDD]) = true := by decide

/-- V-R14. -/
theorem test_out_dx_al :
    reaches 1 (launch { bare with eax := 0x41, edx := 0x3F8 } .s32 [0xEE] [])
      (fun t => t.pc == 1 && t.events == [.portWrite 0x3F8 .byte 0x41]) = true := by decide

/-- V-R15: port 0 is an ordinary port. -/
theorem test_out_dx_ax :
    reaches 1 (launch { bare with eax := 0x1234ABCD } .s16 [0xEF] [])
      (fun t => t.events == [.portWrite 0 .word 0xABCD]) = true := by decide

/-- V-R16. -/
theorem test_out_dx_eax :
    reaches 1 (launch { bare with eax := 0x80000800, edx := 0xCF8 } .s32 [0xEF] [])
      (fun t => t.events == [.portWrite 0xCF8 .dword 0x80000800]) = true := by decide

/-! ### Block I/O (vectors V-B) and REP (vectors V-X) -/

/-- V-B4: the index wraps up. -/
theorem test_insb :
    reaches 1 (launch { bare with edx := 0x80, edi := 0xFFFFFFFF } .s32 [0x6C] [0x5A])
      (fun t => Memory.read t.mem 0xFFFFFFFF == 0x5A && t.edi == 0 && t.pc == 1) = true := by decide

/-- V-B5: address size 16, the upper half of EDI kept. -/
theorem test_insw :
    reaches 1 (launch { bare with edx := 0x80, edi := 0x1234FFFF } .s16 [0x6D] [0xBBAA])
      (fun t => Memory.read t.mem 0xFFFF == 0xAA && Memory.read t.mem 0x10000 == 0xBB && t.edi == 0x12340001) = true := by
  decide

/-- V-B3: DF = 1, little-endian. -/
theorem test_insd :
    reaches 1 (launch { bare with edx := 0xCFC, edi := 0x3000, flags := downward } .s32
        [0x6D] [0x12345678])
      (fun t => Memory.readLE t.mem 0x3000 4 == 0x12345678 && Memory.read t.mem 0x3000 == 0x78 && t.edi == 0x2FFC) =
        true := by decide

/-- V-B10: address size 16, the index wraps down. -/
theorem test_outsb :
    reaches 1 (launch { bare with edx := 0x80, esi := 0x00050000, flags := downward } .s16
        [0x6E] [])
      (fun t => t.esi == 0x0005FFFF && t.events == [.portWrite 0x80 .byte 0x6E]) = true := by decide

/-- V-B7. -/
theorem test_outsw :
    reaches 1 (launch
        { bare with edx := 0x1F0, esi := 0x1000, mem := [(0x1000, 0x34), (0x1001, 0x12)], flags := downward } .s16
        [0x6F] [])
      (fun t => t.esi == 0xFFE && t.events == [.portWrite 0x1F0 .word 0x1234]) = true := by decide

/-- V-B8. -/
theorem test_outsd :
    reaches 1 (launch { bare with edx := 0xCF8, esi := 0x5000, mem := [(0x5001, 0x08), (0x5003, 0x80)] } .s32 [0x6F] [])
      (fun t => t.esi == 0x5004 && t.events == [.portWrite 0xCF8 .dword 0x80000800]) = true := by decide

/-- V-B11, V-B12: an override replaces DS for OUTS and is ignored on INS. -/
theorem test_segment_override :
    reaches 2 (launch
        { bare with edx := 0x378, esi := 0x4000, ds := { flat with base := 0x100 }, mem := [(0x4000, 0x48)] } .s32
        [0x2E, 0x6E] [])
      (fun t => t.events == [.portWrite 0x378 .byte 0x48] && t.pc == 2) = true ∧
      reaches 2 (launch { bare with edx := 0x60, edi := 0x2000, ds := { flat with base := 0x100 } } .s32
          [0x3E, 0x6C] [0x1C])
        (fun t => Memory.read t.mem 0x2000 == 0x1C && t.pc == 2) = true := by decide

/-- V-X4, its first element: the count is CX, pc stays, and the prefix is read again. -/
theorem test_rep_insw_element :
    reaches 2 (launch { bare with ecx := 0xBBBB0003, edi := 0xAAAA1000, edx := 0x1F0 } .s16 [0xF3, 0x6D] [0xB1A0])
      (fun t => t.ecx == 0xBBBB0002 && t.edi == 0xAAAA1002 && t.pc == 0 && t.prefixes == Prefixes.none &&
        Memory.read t.mem 0x1001 == 0xB1) = true := by decide

/-- V-X5, V-X6: a count of zero in CX does nothing but advance, and no check is made. -/
theorem test_rep_zero_count :
    reaches 2 (launch { bare with ecx := 0x00010000, edx := 0x60 } .s16 [0xF3, 0x6C] [])
      (fun t => t.ecx == 0x00010000 && t.pc == 2 && t.events == []) = true ∧
      reaches 2 (launch noMap .s32 [0xF3, 0x6E] []) (fun t => t.pc == 2 && t.events == []) = true := by decide

/-- V-X8. -/
theorem test_rep_refused :
    refuses 2 (launch bare .s16 [0xF3, 0xE4, 0x60] []) .repOnNonString = true ∧
      refuses 2 (launch bare .s16 [0xF3, 0xFA] []) .repOnNonString = true ∧
      refuses 2 (launch bare .s16 [0xF2, 0x6C] []) .repnePrefix = true ∧
      refuses 2 (launch bare .s16 [0xF0, 0xEE] []) .lockPrefix = true := by decide

/-- R74, R78, R81: F2 and F0 are consumed, so that the opcode after them is looked up, and counted. -/
theorem test_undefined_prefixes :
    refuses 2 (launch bare .s16 [0xF2, 0xAE] []) (.opcodeNotInScope 0xAE) = true ∧
      refuses 2 (launch bare .s16 [0xF0, 0x01] []) (.opcodeNotInScope 0x01) = true ∧
      refuses 15 (launch bare .s16 (List.replicate 14 0xF2 ++ [0x6C]) []) .repnePrefix = true ∧
      faults 15 (launch bare .s16 (List.replicate 14 0xF2 ++ [0xE4, 0x60]) []) .instructionTooLong = true ∧
      faults 15 (launch bare .s16 (List.replicate 15 0xF0 ++ [0xEE]) []) .instructionTooLong = true := by decide

/-- R53, D9: a launch whose `Seg` wraps a word at the top of a 16-bit segment, and faults at offset 0x10. -/
def wrapping : State :=
  { bare with cfg :=
      { bare.cfg with segRules :=
          [{ seg := .ds, address := .s16, write := false, width := .word, first := 0xFFFF, last := 0xFFFF,
             locations := some [0x4FFFF, 0x40000] },
           { seg := .ds, address := .s16, write := false, width := .word, first := 0x10, last := 0x1F,
             locations := none }] } }

theorem test_seg_rules :
    reaches 1 (launch { wrapping with esi := 0xFFFF, edx := 0x80, mem := [(0x40000, 0x12), (0x4FFFF, 0x34)] } .s16
        [0x6F] [])
      (fun t => t.events == [.portWrite 0x80 .word 0x1234] && t.esi == 1) = true ∧
      faults 1 (launch { wrapping with esi := 0x10 } .s16 [0x6F] []) (.memoryOperand .ds) = true ∧
      reaches 1 (launch { wrapping with esi := 0x20 } .s16 [0x6F] []) (fun t => t.esi == 0x22) = true := by decide

/-! ### Prefix rows (vectors V-D): what the next opcode does with each -/

/-- R72, V-D3: 66 makes IN AX an IN EAX, and the length counts the prefix. -/
theorem test_operand_size :
    reaches 2 (launch bare .s16 [0x66, 0xE5, 0x10] [0xDEADBEEF]) (fun t => t.eax == 0xDEADBEEF && t.pc == 3) = true := by
  decide

/-- R73, V-D10: 67 makes INSB use DI. -/
theorem test_address_size :
    reaches 2 (launch { bare with edi := 0xAAAA2000 } .s32 [0x67, 0x6C] [0x7E])
      (fun t => Memory.read t.mem 0x2000 == 0x7E && t.edi == 0xAAAA2001) = true := by decide

/-- R81 (1): the last override seen is the one that counts; each row names its own register. -/
theorem test_segment_rows :
    reaches 2 (launch bare .s16 [0x26, 0x36, 0x6E] []) (fun t => t.prefixes.seg == some .ss && t.pc == 0) = true ∧
      reaches 1 (launch bare .s16 [0x26] []) (fun t => t.prefixes.seg == some .es) = true ∧
      reaches 1 (launch bare .s16 [0x3E] []) (fun t => t.prefixes.seg == some .ds) = true ∧
      reaches 1 (launch bare .s16 [0x64] []) (fun t => t.prefixes.seg == some .fs) = true ∧
      reaches 1 (launch bare .s16 [0x65] []) (fun t => t.prefixes.seg == some .gs) = true := by decide

/-! ### Flag instructions (vectors V-F) -/

/-- V-F2, V-F3. -/
theorem test_cli :
    reaches 1 (launch { guest with cpl := 0, flags := { bare.flags with interruptEnable := true } } .s32 [0xFA] [])
      (fun t => t.flags.interruptEnable == false && t.pc == 1) = true ∧
      faults 1 (launch { guest with flags := { bare.flags with interruptEnable := true, iopl := 2 } } .s32 [0xFA] [])
        (.generalProtection .cli) = true := by decide

/-- V-F4, V-F5, V-F6. -/
theorem test_sti :
    reaches 1 (launch { guest with cpl := 1, flags := { bare.flags with iopl := 1 } } .s32 [0xFB] [])
      (fun t => t.flags.interruptEnable) = true ∧
      faults 1 (launch { guest with cpl := 2, flags := { bare.flags with iopl := 1 } } .s32 [0xFB] [])
        (.generalProtection .sti) = true ∧
      reaches 1 (launch { v86 with cpl := 0, flags := { bare.flags with iopl := 3 } } .s16 [0xFB] [])
        (fun t => t.flags.interruptEnable) = true ∧
      faults 1 (launch { v86 with cpl := 0, flags := { bare.flags with iopl := 2 } } .s16 [0xFB] [])
        (.generalProtection .sti) = true := by decide

/-- V-F7, V-F8, V-F9, V-F11. -/
theorem test_popf_protected :
    reaches 1 (launch { guest with cpl := 0 } .s16 [0x9D] [0x3600])
      (fun t => t.flags == { direction := true, interruptEnable := true, iopl := 3 } && t.pc == 1) = true ∧
      reaches 1 (launch { guest with flags := { direction := false, interruptEnable := true, iopl := 3 } } .s16
          [0x9D] [0])
        (fun t => t.flags == { direction := false, interruptEnable := false, iopl := 3 }) = true ∧
      reaches 1 (launch { guest with flags := { direction := false, interruptEnable := true, iopl := 0 } } .s16
          [0x9D] [0x0400])
        (fun t => t.flags == { direction := true, interruptEnable := true, iopl := 0 }) = true ∧
      reaches 1 (launch { guest with cpl := 2, flags := { direction := false, interruptEnable := false, iopl := 1 } } .s16
          [0x9D] [0x3200])
        (fun t => t.flags == { direction := false, interruptEnable := false, iopl := 1 }) = true := by decide

/-- V-F12, V-F13. -/
theorem test_popfd :
    reaches 1 (launch bare .s32 [0x9D] [0x3200])
      (fun t => t.flags == { direction := false, interruptEnable := true, iopl := 3 }) = true ∧
      refuses 1 (launch v86 .s32 [0x9D] [0x3200]) .popfInVirtual8086 = true := by decide

/-! ### The protection check (vectors V-P) -/

/-- V-P1, V-P4, V-P8, V-P9, V-P12, V-P14, V-P17 under IOPB_FETCH_BYTES = 1. -/
theorem test_check_passes :
    guest.ioCheck 0x40 .dword = .pass ∧ guest.ioCheck 7 .word = .pass ∧ guest.ioCheck 0xFE .word = .pass ∧
      guest.ioCheck 0xFF .byte = .pass ∧
      ({ guest with flags := { bare.flags with iopl := 3 } } : State).ioCheck 0x100 .byte = .pass ∧
      ({ v86 with flags := { bare.flags with iopl := 3 } } : State).ioCheck 0x40 .dword = .pass ∧
      ({ guest with cpl := 0 } : State).ioCheck 0x40 .byte = .pass := by decide

/-- V-P2, V-P3, V-P5, V-P6, V-P7, V-P10, V-P13, V-P15 under IOPB_FETCH_BYTES = 1. -/
theorem test_check_denies :
    guest.ioCheck 0x43 .word = .deny ∧ guest.ioCheck 0x100 .byte = .deny ∧ guest.ioCheck 6 .dword = .deny ∧
      guest.ioCheck 41 .byte = .deny ∧ noMap.ioCheck 0 .byte = .deny ∧ guest.ioCheck 0xFF .word = .deny ∧
      ({ v86 with flags := { bare.flags with iopl := 3 } } : State).ioCheck 0x100 .byte = .deny ∧
      guest.ioCheck 0xFFFF .word = .deny := by decide

/-- V-P1, V-P4, V-P8, V-P9 under IOPB_FETCH_BYTES = 2, and V-P21, where both agree. -/
theorem test_check_fetch_two :
    guest2.ioCheck 0x40 .dword = .pass ∧ guest2.ioCheck 7 .word = .pass ∧ guest2.ioCheck 0xFE .word = .deny ∧
      guest2.ioCheck 0xFF .byte = .deny ∧
      ({ guest2 with tssLimit := 0x88, mem := fixtureMem ++ [(0x20088, 0xFF)] } : State).ioCheck 0xFE .word = .pass := by
  decide

/-- V-P16, V-P18, V-P19, V-P20: what a denied instruction does, and an INS that passes. -/
theorem test_denied_instructions :
    faults 1 (launch { guest with edx := 0x44 } .s32 [0xEE] []) (.generalProtection (.port 0x44 .byte)) = true ∧
      reaches 1 (launch { guest with edx := 0x41, edi := 0x3000 } .s32 [0x6C] [0x5A]) (fun t => t.edi == 0x3001) = true ∧
      faults 1 (launch { guest with edx := 0x43, esi := 0x3000 } .s16 [0x6F] [])
        (.generalProtection (.port 0x43 .word)) = true ∧
      faults 1 (launch guest .s32 [0xE4, 0x29] [0]) (.generalProtection (.port 0x29 .byte)) = true := by decide

/-- The fault exit of program P4: the block rewrites its own permission (R62, R164), and its second element raises. -/
theorem test_block_rewrites_its_permission :
    faults 4 (launch { guest with ecx := 3, edx := 0x40, edi := 0x20070 } .s32 [0xF3, 0x6C] [0xFF, 0xFF])
      (.generalProtection (.port 0x40 .byte)) = true := by decide

/-! ### Witnesses: for each statement with hypotheses, a state and operands that meet them all, clause by clause -/

/-- The prefix record after `n` bytes that record nothing else than their number. -/
def counted (n : Nat) : Prefixes := { Prefixes.none with count := n }

/-- The same with F3 among them. -/
def countedRep (n : Nat) : Prefixes := { counted n with rep := true }

/-- Each outcome: the instruction, the three refusals, and an opcode that is not in scope. -/
theorem witness_WholeInstructionDecodes :
    (∀ pre ∈ [[0xF3, 0x66], [0xF0, 0xF2, 0xF3], [0xF2, 0xF3], [(0xF3 : Byte)]], ∀ b ∈ pre, b ∈ prefixBytes) ∧
      Instr.outsd.isPrefix = false ∧ Instr.outsd.wf ((recordOf [0xF3, 0x66]).operandSize .s16) = true ∧
      Instr.cli.isPrefix = false ∧ Instr.cli.wf ((recordOf [0xF3]).operandSize .s16) = true ∧
      Instr.cli.isString = false ∧ (0x90 : Byte) ∉ prefixBytes ∧ ∀ i : Instr, (encode i).head? ≠ some 0x90 :=
  ⟨by decide, rfl, by decide, rfl, by decide, rfl, by decide, fun i => by cases i <;> simp [encode]⟩

theorem witness_StepRunsDecodedInstruction :
    let s := launch bare .s16 [0xE4, 0x60] [0xAB]
    (Instr.inAlImm 0x60).wf s.operandSize = true ∧ s.FetchesBytes (encode (.inAlImm 0x60)) :=
  ⟨by decide, fetches_of (by decide)⟩

/-- With fourteen prefixes, the most there can be. -/
theorem witness_PrefixedInstructionRunsWhole :
    let pre := List.replicate 14 (0x2E : Byte)
    let s := launch bare .s16 (List.replicate 14 0x2E ++ [0x6E]) []
    s.prefixes = Prefixes.none ∧ (∀ b ∈ pre, b ∈ prefixBytes) ∧ Instr.outsb.isPrefix = false ∧ pre.length ≤ 14 ∧
      Instr.outsb.wf ((recordOf pre).operandSize s.cfg.defaultSize) = true ∧ s.FetchesBytes (pre ++ encode .outsb) :=
  ⟨by decide, by decide, by decide, by decide, by decide, fetches_of (by decide)⟩

theorem witness_OutOfScopeBytesRefused_opcode :
    (launch bare .s16 [0x90] []).FetchesBytes [0x90] ∧ (∀ i : Instr, (encode i).head? ≠ some 0x90) ∧
      (0x90 : Byte) ∉ prefixBytes :=
  ⟨fetches_of (by decide), fun i => by cases i <;> simp [encode], by decide⟩

/-- Each of the three refusals, in a 15-byte instruction. -/
theorem witness_OutOfScopeBytesRefused_prefixes :
    let s (p : Prefixes) := bare.setPrefixes { p with count := 14 }
    Instr.cli.isPrefix = false ∧ Instr.cli.isString = false ∧
      (∀ p ∈ [Prefixes.none.noteLock, Prefixes.none.noteRepne, Prefixes.none.noteRep],
        (s p).prefixes.count + Instr.cli.opLength ≤ 15) ∧
      (s Prefixes.none.noteLock).prefixes.lock = true ∧
      ((s Prefixes.none.noteRepne).prefixes.lock = false ∧ (s Prefixes.none.noteRepne).prefixes.repne = true) ∧
      Repeated (s Prefixes.none.noteRep) := by decide

/-- As a first byte, and as a fifteenth. -/
theorem witness_UndefinedPrefixBytesRecord :
    ∀ b ∈ [(0xF2 : Byte), 0xF0],
      let s := launch bare .s16 [b, 0x6C] []
      let t := launch (bare.setPrefixes (counted 14)) .s16 [b, 0x6C] []
      s.FetchesBytes [b] ∧ s.prefixes.count + 2 ≤ 15 ∧ t.FetchesBytes [b] ∧ 15 < t.prefixes.count + 2 := by
  intro b hb
  simp only [List.mem_cons, List.not_mem_nil, or_false] at hb
  rcases hb with rfl | rfl <;>
    exact ⟨fetches_of (by decide), by decide, fetches_of (by decide), by decide⟩

/-- Sixteen bytes, the shortest instruction that is too long, in each shape. -/
theorem witness_LongInstructionNotExecuted :
    (Instr.cli.isPrefix = false ∧ 15 < (bare.setPrefixes (counted 15)).prefixes.count + Instr.cli.opLength) ∧
      ((Instr.inAlImm 0).isPrefix = false ∧
        15 < (bare.setPrefixes (counted 14)).prefixes.count + (Instr.inAlImm 0).opLength) ∧
      (Instr.rep.isPrefix = true ∧ 15 < (bare.setPrefixes (counted 14)).prefixes.count + 2) := by decide

theorem witness_FetchStopsOutsideProgram :
    (bare.prefixes.count = 0 ∧ bare.pc.toNat = bare.cfg.textEnd) ∧
      (State.reset.inText State.reset.fetchOffset = false ∧
        ¬ (State.reset.prefixes.count = 0 ∧ State.reset.pc.toNat = State.reset.cfg.textEnd)) ∧
      ∀ b ∈ [(0xE4 : Byte), 0xE7],
        let s := launch bare .s16 [b] []
        s.FetchesBytes [b] ∧ 0xE4 ≤ b.toNat ∧ b.toNat ≤ 0xE7 ∧ s.inText (s.fetchOffset + 1) = false := by
  refine ⟨by decide, by decide, fun b hb => ?_⟩
  simp only [List.mem_cons, List.not_mem_nil, or_false] at hb
  rcases hb with rfl | rfl <;> exact ⟨fetches_of (by decide), by decide, by decide, by decide⟩

theorem witness_PrefixRowsRecord : (bare.setPrefixes (counted 13)).prefixes.count + 2 ≤ 15 := by decide

/-- Port 255 at every width, in a 15-byte instruction; and a denied port. -/
theorem witness_InFromImmediatePort :
    let s := bare.setPrefixes (counted 13)
    s.prefixes.count + 2 ≤ 15 ∧ Unrepeated s ∧
      (∀ w ∈ [Width.byte, .word, .dword], s.ioCheck ((0xFF : Byte).setWidth 16) w = .pass ∧
        ((0xFF : Byte).setWidth 16).toNat + bytesOf w - 1 ≤ 65535) ∧
      guest.prefixes.count + 2 ≤ 15 ∧ Unrepeated guest ∧
      (∀ w ∈ [Width.byte, .word, .dword], guest.ioCheck ((0x29 : Byte).setWidth 16) w = .deny) := by decide

/-- The last port of each width; and a denied port. -/
theorem witness_InFromDxPort :
    let s (dx : Word) := { bare.setPrefixes (counted 14) with edx := dx }
    let g := { guest with edx := 0x44 }
    (s 0).prefixes.count + 1 ≤ 15 ∧ Unrepeated (s 0) ∧
      (∀ c ∈ [((0xFFFF : Word), Width.byte), (0xFFFE, .word), (0xFFFC, .dword)],
        (s c.1).ioCheck ((s c.1).edx.setWidth 16) c.2 = .pass ∧
          ((s c.1).edx.setWidth 16).toNat + bytesOf c.2 - 1 ≤ 65535) ∧
      (∀ w ∈ [Width.byte, .word, .dword], g.ioCheck (g.edx.setWidth 16) w = .deny) := by decide

theorem witness_OutToImmediatePort :
    let s := bare.setPrefixes (counted 13)
    s.prefixes.count + 2 ≤ 15 ∧ Unrepeated s ∧
      (∀ w ∈ [Width.byte, .word, .dword], s.ioCheck ((0x80 : Byte).setWidth 16) w = .pass ∧
        ((0x80 : Byte).setWidth 16).toNat + bytesOf w - 1 ≤ 65535) ∧
      guest.prefixes.count + 2 ≤ 15 ∧ Unrepeated guest ∧
      (∀ w ∈ [Width.byte, .word, .dword], guest.ioCheck ((0x44 : Byte).setWidth 16) w = .deny) := by decide

theorem witness_OutToDxPort :
    let s (dx : Word) := { guest.setPrefixes (counted 14) with edx := dx }
    (s 0).prefixes.count + 1 ≤ 15 ∧ Unrepeated (s 0) ∧
      (∀ w ∈ [Width.byte, .word, .dword], (s 0x40).ioCheck ((s 0x40).edx.setWidth 16) w = .pass ∧
        ((s 0x40).edx.setWidth 16).toNat + bytesOf w - 1 ≤ 65535) ∧
      (∀ w ∈ [Width.byte, .word, .dword], (s 0x44).ioCheck ((s 0x44).edx.setWidth 16) w = .deny) := by decide

/-- The last bytes of memory, at each width. -/
theorem witness_InsTransfersOneElement :
    ∀ w ∈ [Width.byte, .word, .dword],
      let s : State := { bare.setPrefixes (counted 14) with
        edx := 0x60, edi := 0 - BitVec.ofNat 32 (bytesOf w), cfg := { bare.cfg with defaultSize := .s32 } }
      s.prefixes.count + 1 ≤ 15 ∧ Unrepeated s ∧ Memory.wf s.mem ∧
        s.ioCheck (s.edx.setWidth 16) w = .pass ∧ (s.edx.setWidth 16).toNat + bytesOf w - 1 ≤ 65535 ∧
        s.insLocations w = some (List.range' (2 ^ 32 - bytesOf w) (bytesOf w)) ∧
        s.overlapsText (List.range' (2 ^ 32 - bytesOf w) (bytesOf w)) = false := by
  decide

/-- A destination whose last byte is a device's: three bytes in memory, one write for the device. -/
theorem witness_InsTransfersOneElement_device :
    let s : State := { bare with edi := 0x3000, cfg := { bare.cfg with devices := [DeviceWindow.mk 0x3003 1] } }
    s.prefixes.count + 1 ≤ 15 ∧ Unrepeated s ∧ Memory.wf s.mem ∧ s.ioCheck (s.edx.setWidth 16) .dword = .pass ∧
      (s.edx.setWidth 16).toNat + bytesOf .dword - 1 ≤ 65535 ∧
      s.insLocations .dword = some [0x3000, 0x3001, 0x3002, 0x3003] ∧
      s.overlapsText [0x3000, 0x3001, 0x3002, 0x3003] = false ∧
      s.touchesDevice [0x3000, 0x3001, 0x3002, 0x3003] = true ∧ s.isDevice 0x3002 = false ∧ s.isDevice 0x3003 = true := by
  decide

theorem witness_InsTransfersOneElement_stops :
    let denied := { guest with edx := 0x44 }
    let readOnly := { bare with es := { flat with writable := false } }
    let code := launch bare .s16 [0x6C] []
    insWidth .insb = some .byte ∧
      (denied.prefixes.count + 1 ≤ 15 ∧ Unrepeated denied ∧
        denied.ioCheck (denied.edx.setWidth 16) .byte = .deny) ∧
      (readOnly.prefixes.count + 1 ≤ 15 ∧ Unrepeated readOnly ∧
        readOnly.ioCheck (readOnly.edx.setWidth 16) .byte = .pass ∧
        (readOnly.edx.setWidth 16).toNat + bytesOf .byte - 1 ≤ 65535 ∧ readOnly.insLocations .byte = none) ∧
      (code.prefixes.count + 1 ≤ 15 ∧ Unrepeated code ∧ code.ioCheck (code.edx.setWidth 16) .byte = .pass ∧
        (code.edx.setWidth 16).toNat + bytesOf .byte - 1 ≤ 65535 ∧ code.insLocations .byte = some [0] ∧
        code.overlapsText [0] = true) := by decide

theorem witness_OutsTransfersOneElement :
    ∀ w ∈ [Width.byte, .word, .dword],
      let s := { guest.setPrefixes (counted 14) with edx := 0x40, esi := 0x3000 }
      let denied := { guest with edx := 0x43 + 1 }
      let short := { bare with ds := { flat with limit := 0x2FFF }, esi := 0x3000 }
      (s.prefixes.count + 1 ≤ 15 ∧ Unrepeated s ∧ s.ioCheck (s.edx.setWidth 16) w = .pass ∧
        (s.edx.setWidth 16).toNat + bytesOf w - 1 ≤ 65535 ∧ s.outsLocations w = some (List.range' 0x3000 (bytesOf w)) ∧
        ∀ a ∈ List.range' 0x3000 (bytesOf w), s.isDevice a = false) ∧
      (denied.prefixes.count + 1 ≤ 15 ∧ Unrepeated denied ∧
        denied.ioCheck (denied.edx.setWidth 16) w = .deny) ∧
      (short.prefixes.count + 1 ≤ 15 ∧ Unrepeated short ∧ short.ioCheck (short.edx.setWidth 16) w = .pass ∧
        (short.edx.setWidth 16).toNat + bytesOf w - 1 ≤ 65535 ∧ short.outsLocations w = none) := by decide

/-- An operand wholly a device's, and one that a device has the last byte of. -/
theorem witness_OutsReadsMappedDevice :
    ∀ d ∈ [DeviceWindow.mk 0x3000 4, DeviceWindow.mk 0x3003 1],
      let s := { bare with esi := 0x3000, cfg := { bare.cfg with devices := [d] } }
      outsWidth .outsd = some .dword ∧ s.prefixes.count + 1 ≤ 15 ∧ Unrepeated s ∧
        s.ioCheck (s.edx.setWidth 16) .dword = .pass ∧ (s.edx.setWidth 16).toNat + bytesOf .dword - 1 ≤ 65535 ∧
        s.outsLocations .dword = some [0x3000, 0x3001, 0x3002, 0x3003] ∧
        ∃ a ∈ [0x3000, 0x3001, 0x3002, 0x3003], s.isDevice a = true := by decide

/-- Without clauses, at the end of memory and one past it; a clause that covers, at both its ends, and one that does not. -/
theorem witness_SegDecidesOperandLocations :
    bare.cfg.segRules = [] ∧ bare.segLocations .s32 .ds 0xFFFFFFFE .word false = some [0xFFFFFFFE, 0xFFFFFFFF] ∧
      bare.segLocations .s32 .ds 0xFFFFFFFF .word false = none ∧
      wrapping.cfg.segRules ≠ [] ∧ wrapping.segLocations .s16 .ds 0xFFFF .word false = some [0x4FFFF, 0x40000] ∧
      wrapping.segLocations .s16 .ds 0x10 .word false = none ∧ wrapping.segLocations .s16 .ds 0x1F .word false = none ∧
      wrapping.segLocations .s16 .ds 0x20 .word false = some [0x20, 0x21] := by decide

/-- The flat instance of D9 without its last bytes is such a function. -/
theorem witness_EverySegIsExpressible :
    let f : SizeAttr → SegName → Word → Width → Bool → Option (List Nat) := fun _ _ off w _ =>
      if off.toNat + bytesOf w ≤ 2 ^ 32 then some (List.range' off.toNat (bytesOf w)) else none
    ∀ size r off w write as, f size r off w write = some as →
      as.length = bytesOf w ∧ as.Nodup ∧ ∀ a ∈ as, a < 2 ^ 32 := by
  intro f size r off w write as h
  obtain ⟨hc, rfl⟩ : off.toNat + bytesOf w ≤ 2 ^ 32 ∧ List.range' off.toNat (bytesOf w) = as := by simpa [f] using h
  exact ⟨List.length_range', List.nodup_range', fun a ha => by rw [List.mem_range'_1] at ha; omega⟩

theorem witness_RepZeroCountOnlyAdvances :
    let s := { bare.setPrefixes (countedRep 14) with ecx := 0x10000 }
    Instr.insb.isString = true ∧ Repeated s ∧ s.prefixes.count + 1 ≤ 15 ∧ countOf s = 0 := by decide

/-- The last element, an element before it, and elements that stop. -/
theorem witness_RepStepIsOneElement :
    let s (n : Word) := { bare.setPrefixes (countedRep 1) with ecx := n }
    let denied := { guest.setPrefixes (countedRep 1) with ecx := 1, edx := 0x44 }
    Instr.outsb.isString = true ∧ (s 1).prefixes.rep = true ∧ countOf (s 1) ≠ 0 ∧ countOf (s 0xFFFF) ≠ 0 ∧
      completes .outsb ((s 1).setPrefixes { (s 1).prefixes with rep := false }) = true ∧
      completes .outsb ((s 0xFFFF).setPrefixes { (s 0xFFFF).prefixes with rep := false }) = true ∧
      denied.prefixes.rep = true ∧ countOf denied ≠ 0 ∧
      denied.ioCheck (denied.edx.setWidth 16) .byte = .deny := by decide

/-- The block as it is fetched, by a check that can be evaluated. -/
theorem block_of {s : State} {pre : List Byte} {i : Instr} {n : Nat} (h0 : s.prefixes = Prefixes.none)
    (h : (∀ b ∈ pre, b ∈ prefixBytes) ∧ 0xF3 ∈ pre ∧ 0xF2 ∉ pre ∧ 0xF0 ∉ pre ∧ pre.length ≤ 14)
    (hw : i.wf ((recordOf pre).operandSize s.cfg.defaultSize) = true) (hf : s.FetchesBytes (pre ++ encode i))
    (hn : (s.ecx &&& sizeMask ((recordOf pre).addressSize s.cfg.defaultSize)).toNat = n ∧ 0 < n) : RepBlockAt s pre i n :=
  ⟨h0, h.1, h.2.1, h.2.2.1, h.2.2.2.1, h.2.2.2.2, hw, hf, hn⟩

/-- Downwards, with a size prefix. -/
theorem witness_RepOutsWritesBlock :
    let s := launch { bare with ecx := 3, edx := 0x170, esi := 0x2004, flags := downward } .s32 [0xF3, 0x66, 0x6F] []
    let pre := [(0xF3 : Byte), 0x66]
    let locs (k : Nat) := [0x2004 - 2 * k, 0x2005 - 2 * k]
    outsWidth .outsw = some .word ∧ RepBlockAt s pre .outsw 3 ∧
      s.ioCheck (s.edx.setWidth 16) .word = .pass ∧ (s.edx.setWidth 16).toNat + bytesOf .word - 1 ≤ 65535 ∧
      ∀ k < 3, (atElement s pre .word k).outsLocations .word = some (locs k) ∧ ∀ a ∈ locs k, s.isDevice a = false :=
  ⟨rfl, block_of rfl (by decide) rfl (fetches_of (by decide)) (by decide), by decide, by decide, by decide⟩

/-- A block that ends at the top of a 16-bit segment, with fewer answers listed than it has elements. -/
theorem witness_RepInsFillsBlock :
    let s := launch { bare with ecx := 3, edx := 0x1F0, edi := 0xFFFA } .s16 [0xF3, 0x6D] [0xB1A0, 0xD3C2]
    let pre := [(0xF3 : Byte)]
    let locs (k : Nat) := [0xFFFA + 2 * k, 0xFFFB + 2 * k]
    insWidth .insw = some .word ∧ RepBlockAt s pre .insw 3 ∧ Memory.wf s.mem ∧ ¬ mapDecides s ∧
      (s.edx.setWidth 16).toNat + bytesOf .word - 1 ≤ 65535 ∧
      (∀ k < 3, (atElement s pre .word k).insLocations .word = some (locs k) ∧ s.overlapsText (locs k) = false ∧
        ∀ a ∈ locs k, s.isDevice a = false) ∧
      ∀ j k, j < k → k < 3 → (locs j).Disjoint (locs k) :=
  ⟨rfl, block_of rfl (by decide) rfl (fetches_of (by decide)) (by decide), by decide,
    (by rintro (⟨h, _⟩ | h) <;> cases h), by decide, by decide,
    fun j k hj hk x h1 h2 => by simp only [List.mem_cons, List.not_mem_nil, or_false] at h1 h2; omega⟩

/-- Real mode, CPL = IOPL, and CPL one above IOPL; virtual 8086 mode at IOPL 3 and 2. -/
theorem witness_SensitiveFlagInstructions :
    let cpl (s : State) : BitVec 2 := if s.mode = .virtual8086 then 3 else s.cpl
    let s (m : Mode) (c p : BitVec 2) : State :=
      { bare.setPrefixes (counted 14) with mode := m, cpl := c, flags := { bare.flags with iopl := p } }
    (s .realMode 3 0).prefixes.count + 1 ≤ 15 ∧ Unrepeated (s .realMode 3 0) ∧
      (s .realMode 3 0).mode = .realMode ∧ cpl (s .protectedMode 2 2) ≤ (s .protectedMode 2 2).flags.iopl ∧
      cpl (s .virtual8086 0 3) ≤ (s .virtual8086 0 3).flags.iopl ∧
      ((s .protectedMode 2 1).mode ≠ .realMode ∧ (s .protectedMode 2 1).flags.iopl < cpl (s .protectedMode 2 1)) ∧
      ((s .virtual8086 0 2).mode ≠ .realMode ∧ (s .virtual8086 0 2).flags.iopl < cpl (s .virtual8086 0 2)) := by decide

theorem witness_PopfFiltersFlags :
    (Instr.popf = .popf ∨ Instr.popf = .popfd) ∧ (guest.setPrefixes (counted 14)).prefixes.count + 1 ≤ 15 ∧
      Unrepeated (guest.setPrefixes (counted 14)) ∧ guest.mode ≠ .virtual8086 ∧
      v86.prefixes.count + 1 ≤ 15 ∧ Unrepeated v86 ∧ v86.mode = .virtual8086 := by decide

theorem witness_RealModeUnprotected :
    (bare.setPrefixes (counted 14)).mode = .realMode ∧ (bare.setPrefixes (counted 14)).prefixes.count + 1 ≤ 15 ∧
      Unrepeated (bare.setPrefixes (counted 14)) := by decide

theorem witness_IoplAdmitsInProtectedMode :
    let s (c p : BitVec 2) : State :=
      { guest.setPrefixes (counted 14) with cpl := c, flags := { bare.flags with iopl := p } }
    (s 2 2).mode = .protectedMode ∧ (s 2 2).prefixes.count + 1 ≤ 15 ∧ Unrepeated (s 2 2) ∧
      (s 2 2).cpl ≤ (s 2 2).flags.iopl ∧ (s 2 1).flags.iopl < (s 2 1).cpl ∧ (s 3 3).flags.iopl = 3 ∧
      (s 1 0).flags.iopl = 0 ∧ (s 1 0).cpl ≠ 0 := by decide

/-- The map decides for `guest`, and for `v86`. -/
theorem guest_mapDecides : mapDecides guest ∧ mapDecides v86 := ⟨.inl ⟨rfl, by decide⟩, .inr rfl⟩

theorem guest_tssUsable : tssUsable guest ∧ tssUsable guest2 ∧ tssUsable noMap :=
  ⟨by unfold tssUsable; decide, by unfold tssUsable; decide, by unfold tssUsable; decide⟩

/-- A span whose bits are 0, over two bytes of the map, under either fetch; one with a set bit, for a register instruction
and for an element of a block too. -/
theorem witness_MapBitsDecideTransfer :
    (∀ g ∈ [guest, guest2], mapDecides g ∧ tssUsable g ∧ mapBase g < g.tssLimit.toNat ∧
      (∀ k < bytesOf .word, inMap g ((7 : Port).toNat + k)) ∧
      (∀ k < bytesOf .word, mapBit g ((7 : Port).toNat + k) = false) ∧
      mapBase g + (7 : Port).toNat / 8 + 1 ≤ g.tssLimit.toNat) ∧
      guest.cfg.iopbFetch = .one ∧ guest2.cfg.iopbFetch = .two ∧
      (let d := { guest.setPrefixes (countedRep 1) with edx := 0x43, ecx := 2 }
       mapDecides d ∧ tssUsable d ∧ mapBase d < d.tssLimit.toNat ∧
        (∀ k < bytesOf .word, inMap d ((0x43 : Port).toNat + k)) ∧
        (∃ k < bytesOf .word, mapBit d ((0x43 : Port).toNat + k) = true) ∧
        Attempts .inAxDx (d.setPrefixes Prefixes.none) ∧ Attempts .insw d ∧
        transferOf .inAxDx d = some (0x43, .word) ∧ transferOf .insw d = some (0x43, .word)) := by
  refine ⟨fun g hg => ?_, rfl, rfl, .inl ⟨rfl, by decide⟩, ?_, by decide, ?_, ⟨1, by decide, by decide⟩, by decide, by decide,
    by decide, by decide⟩
  · simp only [List.mem_cons, List.not_mem_nil, or_false] at hg
    rcases hg with rfl | rfl
    · exact ⟨guest_mapDecides.1, guest_tssUsable.1, by decide, by unfold inMap; decide, by decide, by decide⟩
    · exact ⟨.inl ⟨rfl, by decide⟩, guest_tssUsable.2.1, by decide, by unfold inMap; decide, by decide, by decide⟩
  · unfold tssUsable; decide
  · unfold inMap; decide

/-- Port 256, the first one beyond the map, and a word at 255 that ends there. -/
theorem witness_PortsBeyondMapDenied :
    mapDecides guest ∧ tssUsable guest ∧ mapBase guest < guest.tssLimit.toNat ∧
      (0 < bytesOf .byte ∧ guest.tssLimit.toNat < mapBase guest + ((0x100 : Port).toNat + 0) / 8) ∧
      (1 < bytesOf .word ∧ guest.tssLimit.toNat < mapBase guest + ((0xFF : Port).toNat + 1) / 8) ∧
      guest.tssLimit.toNat = mapBase guest + 31 ∧ 255 < (0xFF : Port).toNat + bytesOf .word - 1 :=
  ⟨guest_mapDecides.1, guest_tssUsable.1, by decide, by decide, by decide, by decide, by decide⟩

/-- The equality included. -/
theorem witness_NoMapDeniesEveryPort :
    mapDecides noMap ∧ tssUsable noMap ∧ noMap.tssLimit.toNat ≤ mapBase noMap ∧ noMap.tssLimit.toNat = mapBase noMap ∧
      Attempts .insb noMap ∧ transferOf .insb noMap = some (0, .byte) :=
  ⟨.inl ⟨rfl, by decide⟩, guest_tssUsable.2.2, by decide, by decide, by decide, by decide⟩

theorem witness_VirtualModeIgnoresIopl :
    let s := v86.setPrefixes (counted 14)
    let t : State := { s with flags := { s.flags with iopl := 3 } }
    s.mode = .virtual8086 ∧ s.ioCheck 0x40 .dword = .pass ∧ s.prefixes.count + 1 ≤ 15 ∧ Unrepeated s ∧
      s.flags.iopl ≠ 3 ∧ t.mode = .virtual8086 ∧ t.prefixes.count + 1 ≤ 15 ∧ Unrepeated t ∧
      t.flags.iopl = 3 := by decide

theorem witness_TerminatedMapMakesFetchAgree :
    let s := { guest with tssLimit := 0x88, mem := fixtureMem ++ [(0x20088, 0xFF)] }
    Memory.read s.mem (s.tssBase.toNat + s.tssLimit.toNat) = 0xFF := by decide

theorem witness_FetchTwoDeniesLastMapByte :
    mapDecides guest2 ∧ tssUsable guest2 ∧ guest2.cfg.iopbFetch = .two ∧
      guest2.tssLimit.toNat = mapBase guest2 + 31 ∧ 248 ≤ (248 : Port).toNat ∧ 248 ≤ (255 : Port).toNat :=
  ⟨.inl ⟨rfl, by decide⟩, guest_tssUsable.2.1, rfl, by decide, by decide, by decide⟩

/-- The first span past the top at each wide width. -/
theorem witness_SpanPastTopNeverTransfers :
    65535 < (0xFFFF : Port).toNat + bytesOf .word - 1 ∧ 65535 < (0xFFFD : Port).toNat + bytesOf .dword - 1 ∧
      mapDecides guest ∧ tssUsable guest ∧
      (let s := { bare with edx := 0xFFFF }
       Attempts .outDxAx s ∧ transferOf .outDxAx s = some (0xFFFF, .word) ∧
         s.ioCheck 0xFFFF .word = .pass) :=
  ⟨by decide, by decide, guest_mapDecides.1, guest_tssUsable.1, by decide⟩

theorem witness_UnusableTssRefused :
    let older := { guest with cfg := { guest.cfg with tssKind := .older } }
    let small := { guest with tssLimit := 0x66 }
    let high := { guest with tssBase := 0xFFFFFF99, tssLimit := 0x67 }
    let least := { guest with tssBase := 0xFFFFFF98, tssLimit := 0x67 }
    let mapped := { guest with cfg := { guest.cfg with devices := [DeviceWindow.mk 0x20087 1] } }
    (mapDecides older ∧ older.cfg.tssKind = .older) ∧
      (mapDecides small ∧ small.cfg.tssKind = .i386 ∧ small.tssLimit.toNat < 0x67) ∧
      (mapDecides high ∧ high.cfg.tssKind = .i386 ∧ 0x67 ≤ high.tssLimit.toNat ∧
        2 ^ 32 ≤ high.tssBase.toNat + high.tssLimit.toNat) ∧
      (mapDecides least ∧ least.cfg.tssKind = .i386 ∧ 0x67 ≤ least.tssLimit.toNat ∧
        least.tssBase.toNat + least.tssLimit.toNat < 2 ^ 32 ∧
        ∀ x, least.tssBase.toNat + 0x66 ≤ x → x ≤ least.tssBase.toNat + least.tssLimit.toNat →
          least.isDevice x = false) ∧
      (mapDecides mapped ∧ mapped.cfg.tssKind = .i386 ∧ 0x67 ≤ mapped.tssLimit.toNat ∧
        mapped.tssBase.toNat + mapped.tssLimit.toNat < 2 ^ 32 ∧ mapped.tssBase.toNat + 0x66 ≤ 0x20087 ∧
        0x20087 ≤ mapped.tssBase.toNat + mapped.tssLimit.toNat ∧ mapped.isDevice 0x20087 = true) ∧
      (Attempts .outsb small ∧ transferOf .outsb small = some (0, .byte) ∧
        small.ioCheck 0 .byte = .refuse .tssTooSmall) :=
  ⟨⟨.inl ⟨rfl, by decide⟩, rfl⟩, ⟨.inl ⟨rfl, by decide⟩, rfl, by decide⟩,
    ⟨.inl ⟨rfl, by decide⟩, rfl, by decide, by decide⟩,
    ⟨.inl ⟨rfl, by decide⟩, rfl, by decide, by decide, fun _ _ _ => rfl⟩,
    ⟨.inl ⟨rfl, by decide⟩, rfl, by decide, by decide, by decide, by decide, by decide⟩, by decide⟩

/-- A state for each row of the table. -/
theorem witness_OutcomeTable :
    let s (m : Mode) (c p : BitVec 2) : State :=
      { guest.setPrefixes (counted 14) with mode := m, cpl := c, flags := { bare.flags with iopl := p } }
    (s .realMode 0 0).prefixes.count + 1 ≤ 15 ∧ Unrepeated (s .realMode 0 0) ∧
      (s .realMode 0 0).mode = .realMode ∧
      ((s .protectedMode 0 0).mode = .protectedMode ∧ (s .protectedMode 0 0).cpl = 0) ∧
      ((s .protectedMode 2 2).mode = .protectedMode ∧ 0 < (s .protectedMode 2 2).cpl ∧
        (s .protectedMode 2 2).cpl ≤ (s .protectedMode 2 2).flags.iopl) ∧
      ((s .protectedMode 2 1).mode = .protectedMode ∧ (s .protectedMode 2 1).flags.iopl < (s .protectedMode 2 1).cpl) ∧
      ((s .virtual8086 3 3).mode = .virtual8086 ∧ (s .virtual8086 3 3).flags.iopl = 3) ∧
      ((s .virtual8086 3 2).mode = .virtual8086 ∧ (s .virtual8086 3 2).flags.iopl < 3) := by decide

/-- A step of INSB in real mode: one that the invariants of every step and the frames speak of. -/
def insbLaunch : State := launch { bare with edx := 0x60, edi := 0x2000 } .s32 [0x6C] [0x1C]

theorem witness_StepKeepsInvariant : Inv insbLaunch ∧ ∃ t, step insbLaunch = .next t := by
  obtain ⟨t, h, _⟩ := next_of_reaches (s := insbLaunch) (p := fun _ => true) (by decide)
  exact ⟨by decide, t, h⟩

theorem witness_StepKeepsProtectionState : ∃ t, step insbLaunch = .next t := witness_StepKeepsInvariant.2

/-- Each kind of register does change under its instruction. -/
theorem witness_RegistersChangeOnlyByTheirInstructions :
    reaches 1 (launch bare .s16 [0xE4, 0x60] [0xAB]) (fun t => t.eax != 0) = true ∧
      reaches 1 (launch bare .s16 [0x6E] []) (fun t => t.esi != 0) = true ∧
      reaches 1 insbLaunch (fun t => t.edi != insbLaunch.edi) = true ∧
      reaches 2 (launch { bare with ecx := 1 } .s16 [0xF3, 0x6E] []) (fun t => t.ecx != 1) = true ∧
      reaches 1 (launch bare .s16 [0xFB] []) (fun t => t.flags != bare.flags) = true ∧
      reaches 1 (launch bare .s16 [0x9D] [0x3600])
        (fun t => t.flags.direction != bare.flags.direction && t.flags.iopl != bare.flags.iopl) = true := by decide

theorem witness_IoplChangesOnlyAtLevelZero :
    let s := launch guest .s32 [0x9D] [0x3600]
    (∃ t, step s = .next t) ∧ s.mode ≠ .realMode ∧ s.currentCpl ≠ 0 := by
  obtain ⟨t, h, _⟩ := next_of_reaches (s := launch guest .s32 [0x9D] [0x3600]) (p := fun _ => true) (by decide)
  exact ⟨⟨t, h⟩, by decide, by decide⟩

theorem witness_IfChangesOnlyWithinIopl :
    let s := launch guest .s32 [0x9D] [0x3600]
    (∃ t, step s = .next t) ∧ s.mode ≠ .realMode ∧ s.flags.iopl < s.currentCpl :=
  ⟨witness_IoplChangesOnlyAtLevelZero.1, by decide, by decide⟩

/-- Both sides of the equivalence can hold, for each of its cases. -/
theorem witness_GeneralProtectionExactly :
    let d := { guest.setPrefixes (countedRep 1) with edx := 0x44, ecx := 1 }
    Attempts .cli guest ∧ sensitiveCause .cli = some .cli ∧ guest.mode ≠ .realMode ∧
      guest.flags.iopl < guest.currentCpl ∧
      Attempts (.inAlImm 0x29) guest ∧ transferOf (.inAlImm 0x29) guest = some (0x29, .byte) ∧
      guest.ioCheck 0x29 .byte = .deny ∧ Attempts .insb d ∧ transferOf .insb d = some (0x44, .byte) ∧
      d.ioCheck 0x44 .byte = .deny := by decide

theorem witness_PortEventsOnlyPermitted : ∃ t, step insbLaunch = .next t ∧ t.events = [.portRead 0x60 .byte 0x1C] := by
  obtain ⟨t, h, ht⟩ := next_of_reaches (s := insbLaunch) (p := fun t => t.events == [.portRead 0x60 .byte 0x1C])
    (by decide)
  exact ⟨t, h, by simpa using ht⟩

theorem witness_MemoryChangesOnlyByIns :
    ∃ t, exec .insb insbLaunch = .next t ∧ Memory.read t.mem 0x2000 ≠ Memory.read insbLaunch.mem 0x2000 := by
  obtain ⟨t, h, ht⟩ := next_of_reaches (s := insbLaunch) (p := fun t => Memory.read t.mem 0x2000 != 0) (by decide)
  have h0 : Memory.read insbLaunch.mem 0x2000 = 0 := by decide
  exact ⟨t, h, by rw [h0]; simpa using ht⟩

theorem witness_ProgramTextNeverChanges :
    (∃ t, step insbLaunch = .next t) ∧ insbLaunch.cfg.textStart ≤ 0 ∧ 0 < insbLaunch.cfg.textEnd :=
  ⟨witness_StepKeepsInvariant.2, by decide, by decide⟩

theorem witness_PcStaysInProgram :
    (∃ t, step insbLaunch = .next t) ∧ insbLaunch.cfg.textStart ≤ insbLaunch.pc.toNat ∧
      insbLaunch.pc.toNat ≤ insbLaunch.cfg.textEnd := ⟨witness_StepKeepsInvariant.2, by decide, by decide⟩

end Sys2Proof.Tests
end

section
/-! The parameter `Seg` as a list of clauses (20_memory.md R53, D9; notes/assumptions/8.md): one clause for each operand
says any function, since there are finitely many operands. -/

namespace Sys2Proof.Machine

/-- What `Seg` is asked about (20_memory.md R53): `Seg(s, off, n, kind)` at an address size. -/
structure SegOperand where
  size : SizeAttr
  seg : SegName
  off : Word
  width : Width
  write : Bool

/-- Every operand. Noncomputable, so that nothing ever evaluates the list of all offsets. -/
noncomputable def SegOperand.all : List SegOperand :=
  ([.s16, .s32] ×ˢ [.es, .cs, .ss, .ds, .fs, .gs] ×ˢ (List.range (2 ^ 32)).map (BitVec.ofNat 32) ×ˢ
    [.byte, .word, .dword] ×ˢ [false, true]).map fun (size, seg, off, width, write) => ⟨size, seg, off, width, write⟩

/-- The clause that speaks of the operand `o` alone and gives it the locations `as`, or the fault. -/
def pointClause (o : SegOperand) (as : Option (List Nat)) : SegRule :=
  { seg := o.seg, address := o.size, write := o.write, width := o.width, first := o.off, last := o.off, locations := as }

/-- One clause for each operand, which gives it what the function `f` does. -/
noncomputable def pointClauses (f : SizeAttr → SegName → Word → Width → Bool → Option (List Nat)) : List SegRule :=
  SegOperand.all.map fun o => pointClause o (f o.size o.seg o.off o.width o.write)

theorem mem_allOffsets (off : Word) : off ∈ (List.range (2 ^ 32)).map (BitVec.ofNat 32) :=
  List.mem_map.2 ⟨off.toNat, List.mem_range.2 off.isLt, by rw [BitVec.ofNat_toNat, BitVec.setWidth_eq]⟩

theorem SegOperand.mem_all (o : SegOperand) : o ∈ SegOperand.all := by
  obtain ⟨size, seg, off, width, write⟩ := o
  refine List.mem_map.2 ⟨(size, seg, off, width, write), ?_, rfl⟩
  have hsize : size ∈ [SizeAttr.s16, .s32] := by cases size <;> decide
  have hseg : seg ∈ [SegName.es, .cs, .ss, .ds, .fs, .gs] := by cases seg <;> decide
  have hwidth : width ∈ [Width.byte, .word, .dword] := by cases width <;> decide
  have hwrite : write ∈ [false, true] := by cases write <;> decide
  simp only [List.mem_product]
  exact ⟨hsize, hseg, mem_allOffsets off, hwidth, hwrite⟩

/-- Which operands a clause covers, field by field. -/
theorem clauseCovers_iff {q : SegRule} {size : SizeAttr} {r : SegName} {off : Word} {w : Width} {write : Bool} :
    clauseCovers q size r off w write = true ↔
      q.seg = r ∧ q.address = size ∧ q.width = w ∧ q.write = write ∧ q.first ≤ off ∧ off ≤ q.last := by
  simp [clauseCovers, and_assoc]

theorem pointClause_covers_iff {o : SegOperand} {as : Option (List Nat)} {size : SizeAttr} {r : SegName} {off : Word}
    {w : Width} {write : Bool} :
    clauseCovers (pointClause o as) size r off w write = true ↔ o = ⟨size, r, off, w, write⟩ := by
  obtain ⟨size', r', off', w', write'⟩ := o
  have hoff : off' ≤ off ∧ off ≤ off' ↔ off' = off :=
    ⟨fun ⟨hle, hge⟩ => BitVec.le_antisymm hle hge, fun h => h ▸ ⟨BitVec.le_refl _, BitVec.le_refl _⟩⟩
  simp only [clauseCovers_iff, pointClause, hoff, SegOperand.mk.injEq]
  tauto

theorem pointClause_mem_pointClauses (f : SizeAttr → SegName → Word → Width → Bool → Option (List Nat))
    (o : SegOperand) : pointClause o (f o.size o.seg o.off o.width o.write) ∈ pointClauses f :=
  List.mem_map_of_mem o.mem_all

/-- The clause gives its operand the locations as they are written. -/
theorem clauseLocations_pointClause (size : SizeAttr) (r : SegName) (off : Word) (w : Width) (write : Bool)
    (as : Option (List Nat)) : clauseLocations (pointClause ⟨size, r, off, w, write⟩ as) off = as := by
  simp [clauseLocations, pointClause]

theorem areLocations_iff {w : Width} {as : List Nat} :
    areLocations w as = true ↔ as.length = bytesOf w ∧ as.Nodup ∧ ∀ a ∈ as, a < 2 ^ 32 := by
  simp only [areLocations, widthBytes_eq, Bool.and_eq_true, beq_iff_eq, decide_eq_true_iff, List.all_eq_true, and_assoc]
  rw [memorySize]

/-- Where a clause covers the operand, the first such one decides and the segment register has no part. -/
theorem State.segLocations_of_find? {s : State} {q : SegRule} {size : SizeAttr} {r : SegName} {off : Word} {w : Width}
    {write : Bool} (h : (s.cfg.segRules.find? fun q => clauseCovers q size r off w write) = some q) :
    s.segLocations size r off w write = (clauseLocations q off).filter (areLocations w) := by
  simp [State.segLocations, h]

/-- Of the clauses for every operand, the one found for an operand is its own. -/
theorem find?_pointClauses (f : SizeAttr → SegName → Word → Width → Bool → Option (List Nat)) (size : SizeAttr)
    (r : SegName) (off : Word) (w : Width) (write : Bool) :
    ((pointClauses f).find? fun q => clauseCovers q size r off w write) =
      some (pointClause ⟨size, r, off, w, write⟩ (f size r off w write)) := by
  cases hq : (pointClauses f).find? fun q => clauseCovers q size r off w write with
  | none =>
    have own := List.find?_eq_none.1 hq _ (pointClause_mem_pointClauses f ⟨size, r, off, w, write⟩)
    exact absurd (pointClause_covers_iff.2 rfl) own
  | some q =>
    have covers : clauseCovers q size r off w write = true := by simpa only using List.find?_some hq
    obtain ⟨o, -, rfl⟩ := List.mem_map.1 (List.mem_of_find?_eq_some hq)
    obtain rfl := pointClause_covers_iff.1 covers
    rfl

/-- Settles O20: the clauses are one for each operand, so the first that covers an operand is that operand's own, and what
it gives passes the filter of `Seg` by the premise on the function. -/
theorem everySegIsExpressible : Obligations.EverySegIsExpressible := by
  intro f hf
  refine ⟨pointClauses f, fun s hs size r off w write => ?_⟩
  have found := find?_pointClauses f size r off w write
  rw [← hs] at found
  rw [State.segLocations_of_find? found, clauseLocations_pointClause]
  cases has : f size r off w write with
  | none => rfl
  | some as => exact Option.filter_eq_some_iff.2 ⟨rfl, areLocations_iff.2 (hf size r off w write as has)⟩

end Sys2Proof.Machine
end

section
/-! What a step can do, field by field (10_state.md): the fields that nothing writes, the instructions that may write each
of the others, and where `pc` goes. From these: the invariant, the registers and the end of the program. -/

namespace Sys2Proof

/-- The decoder reads the instruction's own bytes off the head of what it is given. -/
theorem encode_prefix_of_decode {sz : SizeAttr} {bs : List Byte} {i : Instr} (h : decode sz bs = .ok i) :
    encode i <+: bs := by
  cases bs with
  | nil => cases h
  | cons op rest =>
    cases hib : decodeOpcodeIb sz op.toNat with
    | some mk =>
      cases rest with
      | nil => simp [decode, hib] at h
      | cons ib rest =>
        obtain rfl : mk ib = i := by simpa [decode, hib] using h
        rw [(decodeOpcodeIb_some hib ib).2, BitVec.ofNat_toNat, BitVec.setWidth_eq]
        exact ⟨rest, rfl⟩
    | none =>
      cases hop : decodeOpcode sz op.toNat with
      | some j =>
        obtain rfl : j = i := by simpa [decode, hib, hop] using h
        rw [(decodeOpcode_some hop).2, BitVec.ofNat_toNat, BitVec.setWidth_eq]
        exact ⟨rest, rfl⟩
      | none =>
        simp only [decode, hib, hop] at h
        split_ifs at h

/-- `E4` to `E7` want an immediate byte at either operand size (30_encoding.md R76). -/
theorem decodeOpcodeIb_isSome {op : Nat} (hlo : 0xE4 ≤ op) (hhi : op ≤ 0xE7) (sz : SizeAttr) :
    ∃ mk, decodeOpcodeIb sz op = some mk := by
  interval_cases op <;> cases sz <;> exact ⟨_, rfl⟩

theorem decode_missing_immediate {b : Byte} (hlo : 0xE4 ≤ b.toNat) (hhi : b.toNat ≤ 0xE7) (sz : SizeAttr) :
    decode sz [b] = .error .missingByte := by
  obtain ⟨mk, hmk⟩ := decodeOpcodeIb_isSome hlo hhi sz
  simp only [decode, hmk]

theorem opLength_pos (i : Instr) : 0 < i.opLength := List.length_pos_iff.2 (encode_ne_nil i)

namespace Machine

/-! ### The fetch -/

theorem State.inText_iff {s : State} {o : Nat} :
    s.inText o = true ↔
      s.cfg.textStart ≤ o ∧ o < s.cfg.textEnd ∧ o + 1 < 2 ^ 32 ∧ s.cs.base.toNat + o < memorySize := by
  simp only [State.inText, Bool.and_eq_true, decide_eq_true_iff, and_assoc]

/-- Every byte fetched lies in the program text. -/
theorem State.inText_of_lt_fetchBytes {s : State} {k : Nat} (h : k < s.fetchBytes.length) :
    s.inText (s.fetchOffset + k) = true := by
  simp only [State.fetchBytes] at h
  split_ifs at h with h0 h1
  · obtain rfl | rfl : k = 0 ∨ k = 1 := by simp only [List.length_cons, List.length_nil] at h; omega
    · exact h0
    · exact h1
  · obtain rfl : k = 0 := by simpa using h
    exact h0
  · cases h

/-- The last byte of a fetched instruction lies in the program text. -/
theorem State.inText_of_fetch {s : State} {i : Instr} (h : s.fetch = .ok i) :
    s.inText (s.fetchOffset + (i.opLength - 1)) = true := by
  have hlen : i.opLength ≤ s.fetchBytes.length := (encode_prefix_of_decode h).length_le
  have hpos := opLength_pos i
  exact State.inText_of_lt_fetchBytes (by omega)

theorem State.fetch_of_outside {s : State} (h : s.inText s.fetchOffset = false) : s.fetch = .error .missingByte := by
  have hbytes : s.fetchBytes = [] := by simp [State.fetchBytes, h]
  rw [State.fetch, hbytes, decode]

/-- The byte in the program text is all that is fetched where the one after it is outside. -/
theorem State.fetchBytes_of_last {s : State} {b : Byte} (hb : s.FetchesBytes [b])
    (hnext : s.inText (s.fetchOffset + 1) = false) : s.fetchBytes = [b] := by
  obtain ⟨hin, hread⟩ := hb 0 b rfl
  simp only [Nat.add_zero] at hin hread
  simp [State.fetchBytes, hin, hnext, hread]

theorem step_of_missingByte {s : State} (h : s.fetch = .error .missingByte) :
    step s = .refused (s.refusalFor .missingByte) := by
  simp only [step, h, undecoded]

theorem State.refusalFor_missingByte_atEnd {s : State} (h : s.prefixes.count = 0 ∧ s.pc.toNat = s.cfg.textEnd) :
    s.refusalFor .missingByte = .endOfProgram := if_pos h

theorem State.refusalFor_missingByte_elsewhere {s : State}
    (h : ¬ (s.prefixes.count = 0 ∧ s.pc.toNat = s.cfg.textEnd)) : s.refusalFor .missingByte = .outsideProgram :=
  if_neg h

section
variable {s t u : State} {i : Instr}

/-! ### What an instruction leaves alone -/

/-- A step that answers a next state has run the instruction it fetched, or has recorded one more prefix byte. -/
theorem step_ran (h : step s = .next t) :
    (∃ i, s.fetch = .ok i ∧ Ran s i t) ∨
      ∃ p : Prefixes, s.prefixes.count + 2 ≤ maxLength ∧ p.count = s.prefixes.count + 1 ∧ t = s.setPrefixes p := by
  obtain ⟨i, hi, hx⟩ | ⟨hl, ⟨-, rfl⟩ | ⟨-, rfl⟩⟩ := step_next h
  · exact .inl ⟨i, hi, exec_next hx⟩
  · exact .inr ⟨_, hl, rfl, rfl⟩
  · exact .inr ⟨_, hl, rfl, rfl⟩

/-- One element writes an index register, memory and what the environment sees. -/
theorem Element.frame (h : Element s i u) :
    u = { s with
      esi := u.esi, edi := u.edi, mem := u.mem, events := u.events, inputs := u.inputs, draws := u.draws } := by
  cases h with
  | ins => rw [State.memWrite_eq]; rfl
  | outs => rw [State.memRead_eq]; split <;> rfl

theorem Element.eax_eq (h : Element s i u) : u.eax = s.eax := by rw [h.frame]

theorem Element.ecx_eq (h : Element s i u) : u.ecx = s.ecx := by rw [h.frame]

theorem Element.esp_eq (h : Element s i u) : u.esp = s.esp := by rw [h.frame]

theorem Element.pc_eq (h : Element s i u) : u.pc = s.pc := by rw [h.frame]

theorem Element.flags_eq (h : Element s i u) : u.flags = s.flags := by rw [h.frame]

/-- `s` with every field that some instruction writes as it is in `t`; nothing writes the others (10_state.md R11, R15,
R22 to R25). -/
def State.withWritten (s t : State) : State :=
  { s with
    eax := t.eax, ecx := t.ecx, esi := t.esi, edi := t.edi, esp := t.esp, pc := t.pc, flags := t.flags,
    mem := t.mem, prefixes := t.prefixes, events := t.events, inputs := t.inputs, draws := t.draws }

theorem Ran.frame (h : Ran s i t) : t = s.withWritten t := by
  cases h with
  | input | output | zeroCount | cli | sti | popf | prefixByte => rfl
  | single _ _ _ hu | last _ _ _ _ hu | more _ _ _ _ hu => rw [hu.frame]; rfl

theorem step_frame (h : step s = .next t) : t = s.withWritten t := by
  obtain ⟨i, -, hr⟩ | ⟨p, -, -, rfl⟩ := step_ran h
  · exact hr.frame
  · rfl

theorem step_cfg (h : step s = .next t) : t.cfg = s.cfg := by
  rw [step_frame h]; rfl

/-! ### Which instruction writes which register -/

theorem Element.outsWidth_or_esi_eq (h : Element s i u) : outsWidth i ≠ none ∨ u.esi = s.esi := by
  cases h with
  | ins => right; rw [State.memWrite_eq]; rfl
  | outs hi => left; simp [hi]

theorem Element.insWidth_or_edi_eq (h : Element s i u) : insWidth i ≠ none ∨ u.edi = s.edi := by
  cases h with
  | ins hi => left; simp [hi]
  | outs => right; rw [State.memRead_eq]; split <;> rfl

/-- `EAX` changes only by an `IN` (10_state.md R10). -/
theorem Ran.isIn_or_eax_eq (h : Ran s i t) : isIn i = true ∨ t.eax = s.eax := by
  cases h with
  | input hi => exact .inl hi
  | output | zeroCount | cli | sti | popf | prefixByte => exact .inr rfl
  | single _ _ _ hu | last _ _ _ _ hu | more _ _ _ _ hu => exact .inr hu.eax_eq

/-- `ESI` changes only by an `OUTS` (10_state.md R12). -/
theorem Ran.outsWidth_or_esi_eq (h : Ran s i t) : outsWidth i ≠ none ∨ t.esi = s.esi := by
  cases h with
  | input | output | zeroCount | cli | sti | popf | prefixByte => exact .inr rfl
  | single _ _ _ hu | last _ _ _ _ hu | more _ _ _ _ hu => exact hu.outsWidth_or_esi_eq

/-- `EDI` changes only by an `INS` (10_state.md R13). -/
theorem Ran.insWidth_or_edi_eq (h : Ran s i t) : insWidth i ≠ none ∨ t.edi = s.edi := by
  cases h with
  | input | output | zeroCount | cli | sti | popf | prefixByte => exact .inr rfl
  | single _ _ _ hu | last _ _ _ _ hu | more _ _ _ _ hu => exact hu.insWidth_or_edi_eq

/-- `ECX` changes only by a repeated string instruction (10_state.md R14). -/
theorem Ran.repeated_or_ecx_eq (h : Ran s i t) : (i.isString = true ∧ s.prefixes.rep = true) ∨ t.ecx = s.ecx := by
  cases h with
  | input | output | zeroCount | cli | sti | popf | prefixByte => exact .inr rfl
  | single _ _ _ hu => exact .inr hu.ecx_eq
  | last hs _ hr | more hs _ hr => exact .inl ⟨hs, hr.1⟩

/-- `ESP` changes only by `POPF` and `POPFD` (10_state.md R15). -/
theorem Ran.popf_or_esp_eq (h : Ran s i t) : (i = .popf ∨ i = .popfd) ∨ t.esp = s.esp := by
  cases h with
  | popf hi => exact .inl hi
  | input | output | zeroCount | cli | sti | prefixByte => exact .inr rfl
  | single _ _ _ hu | last _ _ _ _ hu | more _ _ _ _ hu => exact .inr hu.esp_eq

/-- The flags change only by the four flag instructions (10_state.md R20). -/
theorem Ran.flagInstr_or_flags_eq (h : Ran s i t) :
    (i = .cli ∨ i = .sti ∨ i = .popf ∨ i = .popfd) ∨ t.flags = s.flags := by
  cases h with
  | cli => exact .inl (.inl rfl)
  | sti => exact .inl (.inr (.inl rfl))
  | popf hi => exact .inl (.inr (.inr hi))
  | input | output | zeroCount | prefixByte => exact .inr rfl
  | single _ _ _ hu | last _ _ _ _ hu | more _ _ _ _ hu => exact .inr hu.flags_eq

/-- Of the flag instructions `CLI` and `STI` touch neither DF nor IOPL (42_flag_instructions.md R151, R152). -/
theorem Ran.popf_or_direction_iopl_eq (h : Ran s i t) :
    (i = .popf ∨ i = .popfd) ∨ (t.flags.direction = s.flags.direction ∧ t.flags.iopl = s.flags.iopl) := by
  cases h with
  | popf hi => exact .inl hi
  | input | output | zeroCount | cli | sti | prefixByte => exact .inr ⟨rfl, rfl⟩
  | single _ _ _ hu | last _ _ _ _ hu | more _ _ _ _ hu =>
    exact .inr ⟨congrArg Flags.direction hu.flags_eq, congrArg Flags.iopl hu.flags_eq⟩

/-! ### Memory, the prefix record and `pc` -/

/-- Memory `m` is what an element of the `INS` `i` leaves: a value stored at its operand, outside the program text. -/
def StoredBy (i : Instr) (s : State) (m : Memory) : Prop :=
  ∃ w as v, insWidth i = some w ∧ s.insLocations w = some as ∧ s.overlapsText as = false ∧
    m = Memory.storeLE s.isDevice s.mem as v

/-- Memory changes only by an `INS` (41_block_io.md R121 to R123). -/
theorem Element.mem_eq (h : Element s i u) : u.mem = s.mem ∨ StoredBy i s u.mem := by
  cases h with
  | @ins w as hi _ _ ha ho =>
    refine .inr ⟨w, as, s.portValue w, hi, ha, ho, ?_⟩
    rw [State.memWrite_eq]; rfl
  | outs => left; simp

theorem Ran.mem_eq (h : Ran s i t) : t.mem = s.mem ∨ StoredBy i s t.mem := by
  cases h with
  | input | output | zeroCount | cli | sti | popf | prefixByte => exact .inl rfl
  | single _ _ _ hu | last _ _ _ _ hu | more _ _ _ _ hu => exact hu.mem_eq

/-- An instruction keeps memory canonical and inside the address space: the locations `Seg` gives are in it. -/
theorem Ran.keeps_memory (h : Ran s i t) (hwf : Memory.wf s.mem) (hb : Memory.bounded s.mem) :
    Memory.wf t.mem ∧ Memory.bounded t.mem := by
  obtain hm | ⟨w, as, v, -, ha, -, hm⟩ := h.mem_eq <;> rw [hm]
  · exact ⟨hwf, hb⟩
  · obtain ⟨-, -, hlt⟩ := State.segLocations_some ha
    exact ⟨Memory.storeLE_wf _ hwf as v, Memory.storeLE_bounded _ hb hlt v⟩

theorem step_keeps_memory (h : step s = .next t) (hwf : Memory.wf s.mem) (hb : Memory.bounded s.mem) :
    Memory.wf t.mem ∧ Memory.bounded t.mem := by
  obtain ⟨i, -, hr⟩ | ⟨p, -, -, rfl⟩ := step_ran h
  · exact hr.keeps_memory hwf hb
  · exact ⟨hwf, hb⟩

/-- An instruction clears the prefix record; a prefix byte adds one to its count, while an opcode can still follow. -/
theorem Ran.prefixes_eq (h : Ran s i t) :
    t.prefixes = Prefixes.none ∨ s.prefixes.count + 2 ≤ maxLength ∧ t.prefixes.count = s.prefixes.count + 1 := by
  cases h with
  | input | output | zeroCount | single | last | more | cli | sti | popf => exact .inl rfl
  | prefixByte hi hl => exact .inr ⟨hl, Prefixes.note_count hi s.prefixes⟩

theorem step_prefixes (h : step s = .next t) :
    t.prefixes = Prefixes.none ∨ s.prefixes.count + 2 ≤ maxLength ∧ t.prefixes.count = s.prefixes.count + 1 := by
  obtain ⟨i, -, hr⟩ | ⟨p, hl, hp, rfl⟩ := step_ran h
  · exact hr.prefixes_eq
  · exact .inr ⟨hl, hp⟩

/-- `pc` stays at the instruction, or passes its prefixes and its own bytes (10_state.md R16, 30_encoding.md R74). -/
theorem Ran.pc_eq (h : Ran s i t) :
    t.pc = s.pc ∨ t.pc = s.pc + BitVec.ofNat 32 (s.prefixes.count + i.opLength) := by
  cases h with
  | input | output | cli | sti => exact .inr rfl
  | prefixByte => exact .inl rfl
  | popf hi => right; obtain rfl | rfl := hi <;> rfl
  | zeroCount hs => right; rw [opLength_of_isString hs]; rfl
  | single hs _ _ hu | last hs _ _ _ hu => right; rw [opLength_of_isString hs, hu.frame]; rfl
  | more _ _ _ _ hu => exact .inl hu.pc_eq

/-- Where `pc` passes a fetched instruction it does not wrap, and it comes no further than the end of the text. -/
theorem State.pc_past_fetched (h : s.fetch = .ok i) :
    (s.pc + BitVec.ofNat 32 (s.prefixes.count + i.opLength)).toNat =
        s.pc.toNat + (s.prefixes.count + i.opLength) ∧
      s.pc.toNat + (s.prefixes.count + i.opLength) ≤ s.cfg.textEnd := by
  obtain ⟨-, hend, hlt, -⟩ := State.inText_iff.1 (State.inText_of_fetch h)
  have hpos := opLength_pos i
  unfold State.fetchOffset at hend hlt
  refine ⟨?_, by omega⟩
  rw [BitVec.toNat_add, BitVec.toNat_ofNat, Nat.add_mod_mod, Nat.mod_eq_of_lt (by omega)]

end

/-! ### The statements -/

/-- Settles O39: memory is stored to at locations of `Seg` only, and the prefix record is cleared or one byte longer,
with room left for an opcode. -/
theorem stepKeepsInvariant : Obligations.StepKeepsInvariant := by
  rintro s t ⟨hwf, hb, -, -⟩ h
  obtain ⟨hwf', hb'⟩ := step_keeps_memory h hwf hb
  refine ⟨hwf', hb', ?_⟩
  obtain hnone | ⟨hroom, hcount⟩ := step_prefixes h
  · rw [hnone]
    exact ⟨by decide, fun _ => rfl⟩
  · exact ⟨by omega, fun hzero => by omega⟩

/-- Settles O42: none of these fields is among those that `step_frame` lists as written. -/
theorem stepKeepsProtectionState : Obligations.StepKeepsProtectionState := by
  intro s t h
  rw [step_frame h]
  exact ⟨rfl, rfl, rfl, rfl, rfl, rfl, rfl, rfl, rfl, rfl, rfl, rfl, rfl, rfl⟩

/-- Settles O43, register by register. -/
theorem registersChangeOnlyByTheirInstructions : Obligations.RegistersChangeOnlyByTheirInstructions := by
  intro i s t h
  have hr := exec_next h
  refine ⟨hr.isIn_or_eax_eq.resolve_right, hr.outsWidth_or_esi_eq.resolve_right, hr.insWidth_or_edi_eq.resolve_right,
    hr.repeated_or_ecx_eq.resolve_right, hr.popf_or_esp_eq.resolve_right, hr.flagInstr_or_flags_eq.resolve_right,
    fun hne => hr.popf_or_direction_iopl_eq.resolve_right ?_⟩
  rintro ⟨hdirection, hiopl⟩
  exact hne.elim (· hdirection) (· hiopl)

/-- Settles O50: `pc` moves only past an instruction fetched wholly inside the program text. -/
theorem pcStaysInProgram : Obligations.PcStaysInProgram := by
  intro s t h hstart hend
  rw [step_cfg h]
  obtain ⟨i, hfetch, hr⟩ | ⟨p, -, -, rfl⟩ := step_ran h
  · obtain hpc | hpc := hr.pc_eq <;> rw [hpc]
    · exact ⟨hstart, hend⟩
    · obtain ⟨hpast, hle⟩ := State.pc_past_fetched hfetch
      rw [hpast]
      exact ⟨by omega, hle⟩
  · exact ⟨hstart, hend⟩

/-- Settles O8: outside the program text the decoder is given too few bytes, and the place says which refusal it is. -/
theorem fetchStopsOutsideProgram : Obligations.FetchStopsOutsideProgram := by
  refine ⟨fun s hcount hpc => ?_, fun s hout hne => ?_, fun s b hb hlo hhi hnext => ?_⟩
  · have hout : s.inText s.fetchOffset = false := by
      rw [Bool.eq_false_iff, ne_eq, State.inText_iff, State.fetchOffset]
      omega
    rw [step_of_missingByte (State.fetch_of_outside hout), State.refusalFor_missingByte_atEnd ⟨hcount, hpc⟩]
  · rw [step_of_missingByte (State.fetch_of_outside hout), State.refusalFor_missingByte_elsewhere hne]
  · have hfetch : s.fetch = .error .missingByte := by
      rw [State.fetch, State.fetchBytes_of_last hb hnext, decode_missing_immediate hlo hhi]
    have hne : ¬ (s.prefixes.count = 0 ∧ s.pc.toNat = s.cfg.textEnd) := by
      have hin := State.inText_iff.1 (hb 0 b rfl).1
      rw [State.fetchOffset] at hin
      omega
    rw [step_of_missingByte hfetch, State.refusalFor_missingByte_elsewhere hne]

/-- Settles O40. -/
theorem resetHasInvariant : Obligations.ResetHasInvariant :=
  ⟨State.reset_mem_wf.1, State.reset_mem_wf.2, by decide, fun _ => rfl⟩

/-- Settles O41: the first step is refused since the text that reset leaves, offsets 0 to 0, has no byte. -/
theorem resetLeavesRealMode : Obligations.ResetLeavesRealMode := by
  refine ⟨rfl, rfl, rfl, rfl, rfl, ?_⟩
  obtain ⟨-, outside, -⟩ := fetchStopsOutsideProgram
  exact outside State.reset (by decide) (by decide)

end Machine

end Sys2Proof
end

section
/-! Memory as the instructions see it (20_memory.md): the places `Seg` gives an operand, the value of an operand that a
device is in, what a port span past the top does, and which locations a step may change. -/

namespace Sys2Proof.Machine

theorem bytesOf_pos (w : Width) : 0 < bytesOf w := by cases w <;> decide

theorem bytesOf_le (w : Width) : bytesOf w ≤ 4 := by cases w <;> decide

section
variable {s : State} {q : SegRule} {rest : List SegRule} {size : SizeAttr} {r : SegName} {off : Word} {w : Width}
  {write : Bool} {as : List Nat}

/-! ### `Seg`, clause by clause (20_memory.md R53, D9) -/

/-- The segment register alone places an operand at base plus offset, where its right and its limit allow it. -/
theorem SegReg.locations_eq_some_iff {d : SegReg} :
    d.locations off w write = some as ↔
      d.allows write = true ∧ off.toNat + bytesOf w - 1 ≤ d.limit.toNat ∧
        as = (List.range (bytesOf w)).map (d.base.toNat + off.toNat + ·) := by
  simp only [SegReg.locations, widthBytes_eq, List.range'_eq_map_range, Bool.and_eq_true, decide_eq_true_iff,
    Option.ite_none_right_eq_some, Option.some.injEq, and_assoc, eq_comm (a := as)]

/-- Consecutive locations are locations of memory where the last one is. -/
theorem areLocations_consecutive_iff (w : Width) (a : Nat) :
    areLocations w ((List.range (bytesOf w)).map (a + ·)) = true ↔ a + bytesOf w ≤ 2 ^ 32 := by
  have hpos := bytesOf_pos w
  rw [areLocations_iff, List.length_map, List.length_range, List.forall_mem_map]
  constructor
  · rintro ⟨-, -, hlt⟩
    have := hlt (bytesOf w - 1) (List.mem_range.2 (by omega))
    omega
  · intro hle
    refine ⟨rfl, List.nodup_range.map (add_right_injective a), fun k hk => ?_⟩
    have := List.mem_range.1 hk
    omega

theorem State.segLocations_of_noClauses (h : s.cfg.segRules = []) :
    s.segLocations size r off w write = ((s.segment r).locations off w write).filter (areLocations w) := by
  simp [State.segLocations, h]

/-- The first clause decides where it covers the operand. -/
theorem State.segLocations_of_covers (h : s.cfg.segRules = q :: rest)
    (hq : clauseCovers q size r off w write = true) :
    s.segLocations size r off w write = (clauseLocations q off).filter (areLocations w) :=
  State.segLocations_of_find? (by rw [h]; exact List.find?_cons_of_pos hq)

/-- A clause that does not cover the operand has no part in it. -/
theorem State.segLocations_of_not_covers (h : s.cfg.segRules = q :: rest)
    (hq : ¬ clauseCovers q size r off w write = true) :
    s.segLocations size r off w write =
      ({ s with cfg := { s.cfg with segRules := rest } } : State).segLocations size r off w write := by
  have hfind : (s.cfg.segRules.find? fun c => clauseCovers c size r off w write) =
      rest.find? fun c => clauseCovers c size r off w write := by rw [h]; exact List.find?_cons_of_neg hq
  simp only [State.segLocations, hfind]
  cases r <;> rfl

theorem clauseLocations_eq_some_iff :
    clauseLocations q off = some as ↔
      ∃ ls, q.locations = some ls ∧ as = ls.map fun a => a + (off.toNat - q.first.toNat) := by
  simp only [clauseLocations, Option.map_eq_some_iff, eq_comm (a := as)]

end

/-- Settles O19: `Seg` is the first covering clause or else the segment register, filtered for what is locations. -/
theorem segDecidesOperandLocations : Obligations.SegDecidesOperandLocations := by
  intro s size r off w write isLocations
  refine ⟨fun as h => ?_, fun hnone as => ?_, fun q rest hcons => ⟨fun hcovers as => ?_, fun hcovers => ?_⟩⟩
  · exact areLocations_iff.1 (Option.filter_eq_some_iff.1 h).2
  · rw [State.segLocations_of_noClauses hnone, Option.filter_eq_some_iff, SegReg.locations_eq_some_iff]
    constructor
    · rintro ⟨⟨hright, hlimit, rfl⟩, hloc⟩
      exact ⟨hright, hlimit, rfl, (areLocations_consecutive_iff w _).1 hloc⟩
    · rintro ⟨hright, hlimit, rfl, htop⟩
      exact ⟨⟨hright, hlimit, rfl⟩, (areLocations_consecutive_iff w _).2 htop⟩
  · rw [State.segLocations_of_covers hcons (clauseCovers_iff.2 hcovers), Option.filter_eq_some_iff,
      clauseLocations_eq_some_iff, areLocations_iff]
  · exact State.segLocations_of_not_covers hcons (hcovers ∘ clauseCovers_iff.1)

/-! ### What an instruction does around a transfer -/

/-- An accepted string instruction without `F3` is one element and the end of the instruction (41_block_io.md R121 to
R126). -/
theorem repeated_of_unrepeated {s : State} (hl : s.prefixes.count + 1 ≤ 15) (hr : Unrepeated s)
    (element : State → Result) : repeated s element = andThen (element s) fun t => .next (t.complete 1) := by
  rw [repeated, accepting_of_unrepeated hl hr, if_neg (Bool.eq_false_iff.1 hr.1)]

/-- An accepted string instruction with `F3` and a count is one element, counted, and the end of the instruction or the
same instruction again (41_block_io.md R127). -/
theorem repeated_of_count {s : State} (hl : s.prefixes.count + 1 ≤ 15) (hr : Repeated s) (hn : s.repeatCount ≠ 0)
    (element : State → Result) :
    repeated s element = andThen (element s) fun t =>
      let t' := t.setRepeatCount (t.repeatCount - 1)
      .next (if t'.repeatCount = 0 then t'.complete 1 else t'.again) := by
  rw [repeated, accepting_of_repeated hl hr, if_pos hr.1, if_neg hn]

theorem repeatCount_eq (s : State) : s.repeatCount = countOf s := sizedRead_eq _ _

theorem transferOf_of_insWidth {i : Instr} {w : Width} (h : insWidth i = some w) (s : State) :
    transferOf i s = some (s.dxPort, w) := by
  cases i <;> simp only [insWidth, reduceCtorEq, Option.some.injEq] at h <;> (subst h; rfl)

theorem transferOf_of_outsWidth {i : Instr} {w : Width} (h : outsWidth i = some w) (s : State) :
    transferOf i s = some (s.dxPort, w) := by
  cases i <;> simp only [outsWidth, reduceCtorEq, Option.some.injEq] at h <;> (subst h; rfl)

theorem andThen_next_right (r : Result) : andThen r .next = r := by cases r <;> rfl

/-- An instruction that attempts a transfer passes the guard of the transfer before all else it does. -/
theorem exec_of_transfer {i : Instr} {s : State} {p : Port} {w : Width} (h : Attempts i s)
    (ht : transferOf i s = some (p, w)) :
    ∃ body finish, exec i s = andThen (guarded p w s body) finish := by
  obtain ⟨⟨hl, hrepne, hlock, hstring⟩, hcount⟩ := h
  cases hs : i.isString with
  | false =>
    have hr : Unrepeated s := ⟨by simpa [hs] using hstring, hrepne, hlock⟩
    cases hi : isIn i with
    | false => exact ⟨_, .next, by rw [exec_of_isOut hi hs ht, outputTo, plain_of_accepted hl hr, andThen_next_right]⟩
    | true => exact ⟨_, .next, by rw [exec_of_isIn hi ht, inputFrom, plain_of_accepted hl hr, andThen_next_right]⟩
  | true =>
    rw [opLength_of_isString hs] at hl
    have helement : ∀ f : State → Result, ∃ finish, repeated s f = andThen (f s) finish := fun f => by
      cases hrep : s.prefixes.rep with
      | false => exact ⟨_, repeated_of_unrepeated hl ⟨hrep, hrepne, hlock⟩ f⟩
      | true => exact ⟨_, repeated_of_count hl ⟨hrep, hrepne, hlock⟩ (repeatCount_eq s ▸ hcount hrep) f⟩
    obtain ⟨w', hw⟩ | ⟨w', hw⟩ := width_of_isString hs
    · rw [transferOf_of_insWidth hw] at ht
      cases ht
      rw [exec_of_insWidth hw]
      exact ⟨_, helement _⟩
    · rw [transferOf_of_outsWidth hw] at ht
      cases ht
      rw [exec_of_outsWidth hw]
      exact ⟨_, helement _⟩

/-! ### An operand with a device in it (20_memory.md R50, R53) -/

/-- One byte put below the others, bit by bit. -/
theorem getLsbD_pushByte (v : Word) (b : Byte) {j : Nat} (hj : j < 32) :
    (v <<< 8 ||| b.setWidth 32).getLsbD j = if j < 8 then b.getLsbD j else v.getLsbD (j - 8) := by
  rw [BitVec.getLsbD_or, BitVec.getLsbD_shiftLeft, BitVec.getLsbD_setWidth]
  split
  · simp [*]
  · simp [*, BitVec.getLsbD_of_ge b j (by omega)]

/-- Byte 0 is the one put below the others. -/
theorem extractByte_zero (v : Word) (b : Byte) : (v <<< 8 ||| b.setWidth 32).extractLsb' 0 8 = b := by
  ext i hi
  rw [BitVec.getElem_extractLsb', Nat.zero_add, getLsbD_pushByte v b (by omega), if_pos hi,
    BitVec.getLsbD_eq_getElem]

/-- The bytes above it are the others, one place up. -/
theorem extractByte_succ (v : Word) (b : Byte) {k : Nat} (hk : k < 3) :
    (v <<< 8 ||| b.setWidth 32).extractLsb' (8 * (k + 1)) 8 = v.extractLsb' (8 * k) 8 := by
  ext i hi
  rw [BitVec.getElem_extractLsb', BitVec.getElem_extractLsb', getLsbD_pushByte v b (by omega), if_neg (by omega),
    show 8 * (k + 1) + i - 8 = 8 * k + i by omega]

theorem extractByte_ushiftRight (v : Word) (k : Nat) :
    (v >>> 8).extractLsb' (8 * k) 8 = v.extractLsb' (8 * (k + 1)) 8 := by
  ext i hi
  rw [BitVec.getElem_extractLsb', BitVec.getElem_extractLsb', BitVec.getLsbD_ushiftRight,
    show 8 + (8 * k + i) = 8 * (k + 1) + i by omega]

/-- Byte `k` of a wide load is the `k`-th location's: the device's byte of the answer, or memory's. -/
theorem Memory.loadLE_byte (dev : Nat → Bool) (m : Memory) {as : List Nat} (ans : Word) (hlen : as.length ≤ 4)
    {k a : Nat} (hk : as[k]? = some a) :
    (Memory.loadLE dev m as ans).extractLsb' (8 * k) 8 =
      if dev a = true then ans.extractLsb' (8 * k) 8 else Memory.read m a := by
  induction as generalizing ans k with
  | nil => simp at hk
  | cons b bs ih =>
    rw [List.length_cons] at hlen
    rw [Memory.loadLE]
    cases k with
    | zero =>
      obtain rfl : b = a := by simpa using hk
      rw [Nat.mul_zero, extractByte_zero, ← BitVec.setWidth_eq_extractLsb' (by decide)]
    | succ k =>
      have hk : bs[k]? = some a := by simpa using hk
      obtain ⟨hlt, -⟩ := List.getElem?_eq_some_iff.1 hk
      rw [extractByte_succ _ _ (by omega), ih (ans >>> 8) (by omega) hk, extractByte_ushiftRight]

/-- A wide load has no more bytes than locations. -/
theorem Memory.loadLE_lt (dev : Nat → Bool) (m : Memory) (as : List Nat) (ans : Word) :
    (Memory.loadLE dev m as ans).toNat < 2 ^ (8 * as.length) := by
  induction as generalizing ans with
  | nil => simp [Memory.loadLE]
  | cons a as ih =>
    rw [Memory.loadLE, List.length_cons, BitVec.toNat_or]
    have hrest := ih (ans >>> 8)
    refine Nat.or_lt_two_pow ?_ ?_
    · rw [BitVec.toNat_shiftLeft, Nat.shiftLeft_eq]
      refine lt_of_le_of_lt (Nat.mod_le _ _) ?_
      rw [Nat.mul_add, Nat.pow_add]
      omega
    · rw [BitVec.toNat_setWidth]
      refine lt_of_le_of_lt (Nat.mod_le _ _) (lt_of_lt_of_le (BitVec.isLt _) ?_)
      exact Nat.pow_le_pow_right (by decide) (by omega)

theorem maskOf_toNat (w : Width) : (maskOf w).toNat = 2 ^ (8 * bytesOf w) - 1 := by cases w <;> rfl

theorem and_maskOf_of_lt {v : Word} {w : Width} (h : v.toNat < 2 ^ (8 * bytesOf w)) : v &&& maskOf w = v := by
  apply BitVec.eq_of_toNat_eq
  rw [BitVec.toNat_and, maskOf_toNat, Nat.and_two_pow_sub_one_eq_mod, Nat.mod_eq_of_lt h]

theorem State.memValue_and_maskOf {s : State} {as : List Nat} {w : Width} (h : as.length = bytesOf w) :
    s.memValue as &&& maskOf w = s.memValue as :=
  and_maskOf_of_lt (h ▸ Memory.loadLE_lt s.isDevice s.mem as s.nextAnswer)

theorem State.stepEsi_eq (s : State) (w : Width) : s.stepEsi w = { s with esi := indexAfter s w s.esi } := by
  rw [State.stepEsi, steppedIndex_eq]; rfl

/-- An element of `OUTS` whose operand a device is in: the read of the operand uses up an answer and is an event, and the
port write comes after it (20_memory.md R53; 41_block_io.md R124 to R126). -/
theorem outsElement_of_device {s : State} {w : Width} {as : List Nat} (hc : s.ioCheck s.dxPort w = .pass)
    (hp : s.dxPort.toNat + bytesOf w - 1 ≤ 65535) (ha : s.outsLocations w = some as)
    (hdev : s.touchesDevice as = true) :
    outsElement w s = .next { s with
      esi := indexAfter s w s.esi
      events := s.events ++ [.deviceRead as (s.memValue as), .portWrite s.dxPort w (s.memValue as &&& maskOf w)]
      inputs := s.inputs.tail
      draws := s.draws + 1 } := by
  rw [outsElement, guarded_of_pass hc hp, ha]
  simp only [State.memRead_eq, hdev, if_true, State.stepEsi_eq, State.portWrite, truncTo_eq]
  simp only [State.record, State.dropAnswer, List.append_assoc, List.cons_append, List.nil_append]
  rfl

/-- Settles O17: the value is what `MemRead` puts together, and the device's event comes first. -/
theorem outsReadsMappedDevice : Obligations.OutsReadsMappedDevice := by
  intro s i w as hi hl hr hc hp ha hdev
  have hlen : as.length = bytesOf w := (State.segLocations_some ha).1.trans (widthBytes_eq w)
  have hmask : s.memValue as &&& maskOf w = s.memValue as := State.memValue_and_maskOf hlen
  refine ⟨s.memValue as, hmask, fun k a hk => ?_, ?_⟩
  · exact Memory.loadLE_byte s.isDevice s.mem s.nextAnswer (hlen ▸ bytesOf_le w) hk
  · rw [exec_of_outsWidth hi, repeated_of_unrepeated hl hr,
      outsElement_of_device hc hp ha (List.any_eq_true.2 hdev), hmask]
    rfl

/-! ### A span past port 65535 (20_memory.md R49) -/

/-- The last port of a span past port 65535 is beyond any map. -/
theorem ioCheck_of_span {s : State} {p : Port} {w : Width} (hd : mapDecides s) (hu : tssUsable s)
    (h : 65535 < p.toNat + bytesOf w - 1) : s.ioCheck p w = .deny := by
  rw [ioCheck_of_mapDecides hd, State.consultMap_deny hu]
  have hpos := bytesOf_pos w
  refine .inr (.inr ⟨bytesOf w - 1, by rw [widthBytes_eq]; omega, ?_⟩)
  rw [portDenied_iff, inMap]
  omega

/-- Settles O36: the guard, which comes before all else a transfer does, denies or refuses such a span. -/
theorem spanPastTopNeverTransfers : Obligations.SpanPastTopNeverTransfers := by
  refine fun s p w hspan => ⟨fun hd hu => ioCheck_of_span hd hu hspan, fun i h ht hpass => ?_⟩
  obtain ⟨body, finish, hexec⟩ := exec_of_transfer h ht
  rw [hexec, guarded_of_span hpass hspan, andThen]

/-! ### Which locations a step changes (20_memory.md R52, R60) -/

/-- What an instruction changes in memory is in the destination of an `INS`, outside the program text, and no device's. -/
theorem Ran.changed {i : Instr} {s t : State} {x : Nat} (h : Ran s i t)
    (hne : Memory.read t.mem x ≠ Memory.read s.mem x) :
    ∃ w as, insWidth i = some w ∧ s.insLocations w = some as ∧ s.overlapsText as = false ∧ x ∈ as ∧
      s.isDevice x = false := by
  obtain hm | ⟨w, as, v, hi, ha, ho, hm⟩ := h.mem_eq <;> rw [hm] at hne
  · exact absurd rfl hne
  · have hin : ¬ (x ∉ as ∨ s.isDevice x = true) := fun hout => hne (Memory.read_storeLE_other _ _ v hout)
    rw [not_or, not_not, Bool.not_eq_true] at hin
    exact ⟨w, as, hi, ha, ho, hin⟩

/-- Settles O48: memory is as it was, or what an element of an `INS` stored. -/
theorem memoryChangesOnlyByIns : Obligations.MemoryChangesOnlyByIns := by
  intro i s t x h hne
  obtain ⟨w, as, hi, ha, -, hx, hd⟩ := (exec_next h).changed hne
  exact ⟨w, as, hi, ha, hx, hd⟩

/-- An operand outside the program text holds no byte of it. -/
theorem State.not_mem_of_overlapsText {s : State} {as : List Nat} {o : Nat} (h : s.overlapsText as = false)
    (hlo : s.cfg.textStart ≤ o) (hhi : o < s.cfg.textEnd) : s.cs.base.toNat + o ∉ as := by
  intro hmem
  have hall := List.any_eq_false.1 h _ hmem
  simp only [Bool.and_eq_true, decide_eq_true_iff] at hall
  omega

/-- Settles O49: the one operand a step stores at is outside the program text, whose place nothing writes. -/
theorem programTextNeverChanges : Obligations.ProgramTextNeverChanges := by
  intro s t h
  refine ⟨by rw [step_frame h]; rfl, by rw [step_cfg h], by rw [step_cfg h], fun o hlo hhi => ?_⟩
  obtain ⟨i, -, hr⟩ | ⟨p, -, -, rfl⟩ := step_ran h
  · by_contra hne
    obtain ⟨w, as, -, -, ho, hmem, -⟩ := hr.changed hne
    exact State.not_mem_of_overlapsText ho hlo hhi hmem
  · rfl

end Sys2Proof.Machine
end

section
/-! The encoding (30_encoding.md): the decoder against the encoder, a whole instruction read through its prefix bytes,
and the same prefix bytes run by the machine, one step each. -/

namespace Sys2Proof

open Machine

/-! ### One row of the table (30_encoding.md R71, R72, R76) -/

/-- The decoder gives a row back from its bytes, whatever follows them, exactly at the operand sizes it exists at; at
the other it answers the row that shares the opcode byte. -/
theorem decode_encode_append_iff {sz : SizeAttr} {i : Instr} {rest : List Byte} :
    decode sz (encode i ++ rest) = .ok i ↔ i.wf sz = true := by
  cases i with
  | inAlImm _ | inAlDx | outImmAl _ | outDxAl | insb | outsb | cli | sti => exact iff_of_true rfl rfl
  | rep | operandSize | addressSize | segEs | segCs | segSs | segDs | segFs | segGs => exact iff_of_true rfl rfl
  | inAxImm _ | inAxDx | outImmAx _ | outDxAx | insw | outsw | popf =>
    cases sz with
    | s16 => exact iff_of_true rfl rfl
    | s32 => exact iff_of_false nofun nofun
  | inEaxImm _ | inEaxDx | outImmEax _ | outDxEax | insd | outsd | popfd =>
    cases sz with
    | s16 => exact iff_of_false nofun nofun
    | s32 => exact iff_of_true rfl rfl

theorem decode_encode_append {sz : SizeAttr} {i : Instr} (h : i.wf sz = true) (rest : List Byte) :
    decode sz (encode i ++ rest) = .ok i := decode_encode_append_iff.2 h

/-- Settles O2: the decoder reads what it answers off the head of the bytes, and from its bytes gives a row
back where the row exists. -/
theorem decodeIffEncoding : Obligations.DecodeIffEncoding := by
  refine fun sz bs i => ⟨fun h => ?_, ?_⟩
  · obtain ⟨rest, rfl⟩ := encode_prefix_of_decode h
    exact ⟨decode_encode_append_iff.1 h, rest, rfl⟩
  · rintro ⟨hwf, rest, rfl⟩
    exact decode_encode_append hwf rest

/-- Settles O1: each word is the encoding of its row. -/
theorem knownWordsDecode : Obligations.KnownWordsDecode := by
  have known {sz : SizeAttr} {bs : List Byte} {i : Instr} (hwf : i.wf sz = true) (hbs : bs = encode i ++ []) :
      decode sz bs = .ok i := hbs ▸ decode_encode_append hwf []
  exact ⟨known rfl rfl, known rfl rfl, known rfl rfl, known rfl rfl, known rfl rfl, known rfl rfl, known rfl rfl,
    known rfl rfl, known rfl rfl, known rfl rfl, known rfl rfl, known rfl rfl⟩

/-! ### The bytes that begin no row (30_encoding.md R74, R77, R78) -/

theorem decode_F2 (sz : SizeAttr) (rest : List Byte) : decode sz (0xF2 :: rest) = .error .repnePrefix := rfl

theorem decode_F0 (sz : SizeAttr) (rest : List Byte) : decode sz (0xF0 :: rest) = .error .lockPrefix := rfl

/-- A byte that begins no row and is no prefix byte is rejected by name. -/
theorem decode_outOfScope {b : Byte} (hpre : b ∉ prefixBytes) (hrow : ∀ i : Instr, (encode i).head? ≠ some b)
    (sz : SizeAttr) (rest : List Byte) : decode sz (b :: rest) = .error (.opcodeNotInScope b) := by
  have hib : decodeOpcodeIb sz b.toNat = none := by
    by_contra hne
    obtain ⟨mk, hmk⟩ := Option.ne_none_iff_exists'.1 hne
    exact hrow (mk 0) (by rw [(decodeOpcodeIb_some hmk 0).2]; simp)
  have hop : decodeOpcode sz b.toNat = none := by
    by_contra hne
    obtain ⟨i, hi⟩ := Option.ne_none_iff_exists'.1 hne
    exact hrow i (by rw [(decodeOpcode_some hi).2]; simp)
  have hF2 : b.toNat ≠ 0xF2 := fun h => hpre (by simp [prefixBytes, BitVec.eq_of_toNat_eq (y := 0xF2#8) h])
  have hF0 : b.toNat ≠ 0xF0 := fun h => hpre (by simp [prefixBytes, BitVec.eq_of_toNat_eq (y := 0xF0#8) h])
  simp only [decode, hib, hop, if_neg hF2, if_neg hF0]

/-! ### The record of the prefix bytes (30_encoding.md R81 (1)) -/

theorem recorded_F2 (p : Prefixes) : recorded p 0xF2 = p.noteRepne := by simp [recorded, Prefixes.noteRepne]

theorem recorded_F0 (p : Prefixes) : recorded p 0xF0 = p.noteLock := by simp [recorded, Prefixes.noteLock]

/-- A prefix row's byte is recorded as the row records itself. -/
theorem recorded_eq_note {i : Instr} (hi : i.isPrefix = true) {b : Byte} (hb : encode i = [b]) (p : Prefixes) :
    recorded p b = p.note i := by
  cases i <;> simp only [Instr.isPrefix, Bool.false_eq_true] at hi <;>
    (cases hb; simp [recorded, Prefixes.note, Prefixes.noteRep, Prefixes.noteOperandSize, Prefixes.noteAddressSize,
      Prefixes.noteSegment])

/-- A prefix byte is one of the two without a row, or a prefix row's. -/
theorem prefixByte_cases {b : Byte} (h : b ∈ prefixBytes) :
    b = 0xF2 ∨ b = 0xF0 ∨ ∃ i : Instr, i.isPrefix = true ∧ encode i = [b] := by
  simp only [prefixBytes, List.mem_cons, List.not_mem_nil, or_false] at h
  obtain rfl | rfl | rfl | rfl | rfl | rfl | rfl | rfl | rfl | rfl | rfl := h
  · exact .inr (.inr ⟨.rep, rfl, rfl⟩)
  · exact .inl rfl
  · exact .inr (.inl rfl)
  · exact .inr (.inr ⟨.operandSize, rfl, rfl⟩)
  · exact .inr (.inr ⟨.addressSize, rfl, rfl⟩)
  · exact .inr (.inr ⟨.segEs, rfl, rfl⟩)
  · exact .inr (.inr ⟨.segCs, rfl, rfl⟩)
  · exact .inr (.inr ⟨.segSs, rfl, rfl⟩)
  · exact .inr (.inr ⟨.segDs, rfl, rfl⟩)
  · exact .inr (.inr ⟨.segFs, rfl, rfl⟩)
  · exact .inr (.inr ⟨.segGs, rfl, rfl⟩)

theorem recordOf_concat (pre : List Byte) (b : Byte) : recordOf (pre ++ [b]) = recorded (recordOf pre) b :=
  List.foldl_concat ..

/-- A mark that one byte sets, and nothing clears, is set exactly where that byte is among the prefixes. -/
theorem recordOf_mark_iff {mark : Prefixes → Bool} {x : Byte} (hnone : mark Prefixes.none = false)
    (hstep : ∀ p b, mark (recorded p b) = (mark p || b == x)) (pre : List Byte) :
    mark (recordOf pre) = true ↔ x ∈ pre := by
  induction pre using List.reverseRecOn with
  | nil => simp [recordOf, hnone]
  | append_singleton pre b ih => simp [recordOf_concat, hstep, ih, eq_comm (a := x)]

theorem recordOf_rep_iff (pre : List Byte) : (recordOf pre).rep = true ↔ 0xF3 ∈ pre :=
  recordOf_mark_iff rfl (fun _ _ => rfl) pre

theorem recordOf_repne_iff (pre : List Byte) : (recordOf pre).repne = true ↔ 0xF2 ∈ pre :=
  recordOf_mark_iff rfl (fun _ _ => rfl) pre

theorem recordOf_lock_iff (pre : List Byte) : (recordOf pre).lock = true ↔ 0xF0 ∈ pre :=
  recordOf_mark_iff rfl (fun _ _ => rfl) pre

/-- What R77 refuses, by the prefix bytes themselves; F0 gives the name before F2, F2 before F3
(notes/assumptions/25.md). -/
theorem refusedOn_recordOf (pre : List Byte) (string : Bool) :
    (recordOf pre).refusedOn string =
      if 0xF0 ∈ pre then some .lockPrefix else if 0xF2 ∈ pre then some .repnePrefix
      else if 0xF3 ∈ pre ∧ string = false then some .repOnNonString else none := by
  simp only [Prefixes.refusedOn, Bool.and_eq_true, Bool.not_eq_true', recordOf_lock_iff, recordOf_repne_iff,
    recordOf_rep_iff]

/-! ### A whole instruction (30_encoding.md R81) -/

/-- A prefix byte is recorded and read past, at whatever operand size. -/
theorem decodeWhole_prefixByte {b : Byte} (h : b ∈ prefixBytes) (dflt : SizeAttr) (p : Prefixes) (rest : List Byte) :
    decodeWhole dflt p (b :: rest) = decodeWhole dflt (recorded p b) rest := by
  obtain rfl | rfl | ⟨i, hi, hb⟩ := prefixByte_cases h
  · rw [decodeWhole, decode_F2, recorded_F2]
  · rw [decodeWhole, decode_F0, recorded_F0]
  · have hdecode : decode (p.operandSize dflt) (b :: rest) = .ok i := by
      simpa only [hb, List.singleton_append] using decode_encode_append (wf_of_isPrefix hi (p.operandSize dflt)) rest
    simp only [decodeWhole, hdecode, hi, if_true, recorded_eq_note hi hb]

theorem decodeWhole_prefixBytes {pre : List Byte} (h : ∀ b ∈ pre, b ∈ prefixBytes) (dflt : SizeAttr) (p : Prefixes)
    (rest : List Byte) : decodeWhole dflt p (pre ++ rest) = decodeWhole dflt (pre.foldl recorded p) rest := by
  induction pre generalizing p with
  | nil => rfl
  | cons b pre ih =>
    obtain ⟨hb, hpre⟩ := List.forall_mem_cons.1 h
    rw [List.cons_append, decodeWhole_prefixByte hb, ih hpre, List.foldl_cons]

/-- The opcode row is read at the operand size of the record, and then R77 is asked. -/
theorem decodeWhole_encode {dflt : SizeAttr} {p : Prefixes} {i : Instr} (hi : i.isPrefix = false)
    (hwf : i.wf (p.operandSize dflt) = true) (rest : List Byte) :
    decodeWhole dflt p (encode i ++ rest) = (p.refusedOn i.isString).elim (.ok (p, i)) .error := by
  have hdecode := decode_encode_append hwf rest
  obtain ⟨b, bs, hb⟩ := List.exists_cons_of_ne_nil (encode_ne_nil i)
  rw [hb, List.cons_append] at hdecode ⊢
  simp only [decodeWhole, hdecode, hi, Bool.false_eq_true, if_false]
  cases p.refusedOn i.isString <;> rfl

theorem decodeWhole_outOfScope {b : Byte} (hpre : b ∉ prefixBytes) (hrow : ∀ i : Instr, (encode i).head? ≠ some b)
    (dflt : SizeAttr) (p : Prefixes) (rest : List Byte) :
    decodeWhole dflt p (b :: rest) = .error (.opcodeNotInScope b) := by
  rw [decodeWhole, decode_outOfScope hpre hrow]

/-- Settles O3: past the prefix bytes, with their record, the decoder is at the opcode. -/
theorem wholeInstructionDecodes : Obligations.WholeInstructionDecodes := by
  refine fun dflt pre rest hpre => ⟨fun i hi hwf => ?_, fun b hb hrow => ?_⟩ <;>
    rw [decodeWhole_prefixBytes hpre, ← recordOf]
  · rw [decodeWhole_encode hi hwf, refusedOn_recordOf]
    split_ifs <;> rfl
  · exact decodeWhole_outOfScope hb hrow ..

namespace Machine

/-! ### The bytes at the next fetch (10_state.md R16) -/

theorem State.FetchesBytes.left {s : State} {as bs : List Byte} (h : s.FetchesBytes (as ++ bs)) : s.FetchesBytes as :=
  fun k b hk => h k b (by rw [List.getElem?_append_left (List.getElem?_eq_some_iff.1 hk).1, hk])

/-- With one prefix byte more recorded, the machine fetches from the byte after it. -/
theorem State.FetchesBytes.tail {s : State} {b : Byte} {bs : List Byte} (h : s.FetchesBytes (b :: bs)) {p : Prefixes}
    (hp : p.count = s.prefixes.count + 1) : (s.setPrefixes p).FetchesBytes bs := by
  intro k c hk
  have hoffset : (s.setPrefixes p).fetchOffset + k = s.fetchOffset + (k + 1) := by
    simp only [State.fetchOffset, State.setPrefixes_pc, State.setPrefixes_prefixes, hp]
    omega
  rw [hoffset]
  exact h (k + 1) c hk

/-- Bytes in the program text, no more of them than an opcode and its immediate, are at the head of what is fetched. -/
theorem State.FetchesBytes.prefix_fetchBytes {s : State} {bs : List Byte} (h : s.FetchesBytes bs)
    (hlen : bs.length ≤ 2) : bs <+: s.fetchBytes := by
  match bs, hlen with
  | [], _ => exact List.nil_prefix
  | [b], _ =>
    obtain ⟨hin, hread⟩ := h 0 b rfl
    rw [Nat.add_zero] at hin hread
    simp only [State.fetchBytes, hin, if_true, Nat.add_zero, hread]
    split_ifs <;> exact List.prefix_append [b] _
  | [b, c], _ =>
    obtain ⟨hin, hread⟩ := h 0 b rfl
    obtain ⟨hin', hread'⟩ := h 1 c rfl
    rw [Nat.add_zero] at hin hread
    simp only [State.fetchBytes, hin, hin', if_true, Nat.add_zero, hread, hread', List.prefix_rfl]

/-- A single byte is the first of what is fetched. -/
theorem State.FetchesBytes.fetchBytes_eq_cons {s : State} {b : Byte} (h : s.FetchesBytes [b]) :
    ∃ rest, s.fetchBytes = b :: rest := by
  obtain ⟨rest, hrest⟩ := h.prefix_fetchBytes (Nat.le_succ 1)
  exact ⟨rest, hrest.symm⟩

theorem opLength_le_two (i : Instr) : i.opLength ≤ 2 := by cases i <;> simp [Instr.opLength, encode]

/-! ### One step -/

/-- Settles O4: the encoding is at the head of what is fetched, and the decoder reads it back. -/
theorem stepRunsDecodedInstruction : Obligations.StepRunsDecodedInstruction := by
  intro s i hwf h
  obtain ⟨rest, hrest⟩ := h.prefix_fetchBytes (opLength_le_two i)
  have hfetch : s.fetch = .ok i := by rw [State.fetch, ← hrest, decode_encode_append hwf]
  simp only [step, hfetch]

/-- A prefix byte, with a row or without, is recorded. -/
theorem step_of_prefixByte {s : State} {b : Byte} (hb : b ∈ prefixBytes) (h : s.FetchesBytes [b]) :
    step s = notePrefix (recorded s.prefixes b) s := by
  obtain ⟨rest, hrest⟩ := h.fetchBytes_eq_cons
  obtain rfl | rfl | ⟨i, hi, hbi⟩ := prefixByte_cases hb
  · have hfetch : s.fetch = .error .repnePrefix := by rw [State.fetch, hrest, decode_F2]
    simp only [step, hfetch, undecoded, recorded_F2]
  · have hfetch : s.fetch = .error .lockPrefix := by rw [State.fetch, hrest, decode_F0]
    simp only [step, hfetch, undecoded, recorded_F0]
  · rw [stepRunsDecodedInstruction s i (wf_of_isPrefix hi _) (hbi ▸ h), exec_of_isPrefix hi, recorded_eq_note hi hbi]

theorem step_of_outOfScope {s : State} {b : Byte} (h : s.FetchesBytes [b]) (hpre : b ∉ prefixBytes)
    (hrow : ∀ i : Instr, (encode i).head? ≠ some b) : step s = .refused (.opcodeNotInScope b) := by
  obtain ⟨rest, hrest⟩ := h.fetchBytes_eq_cons
  have hfetch : s.fetch = .error (.opcodeNotInScope b) := by rw [State.fetch, hrest, decode_outOfScope hpre hrow]
  simp only [step, hfetch, undecoded, State.refusalFor]

/-! ### The length and the refusals (30_encoding.md R74, R77) -/

theorem withinLength_of_le {n : Nat} {s : State} (h : s.prefixes.count + n ≤ 15) (k : State → Result) :
    withinLength n s k = k s := if_neg (Nat.not_lt.2 h)

theorem withinLength_of_lt {n : Nat} {s : State} (h : 15 < s.prefixes.count + n) (k : State → Result) :
    withinLength n s k = .fault .instructionTooLong := if_pos h

theorem notePrefix_of_le {s : State} (h : s.prefixes.count + 2 ≤ 15) (p : Prefixes) :
    notePrefix p s = .next (s.setPrefixes p) := withinLength_of_le h _

theorem notePrefix_of_lt {s : State} (h : 15 < s.prefixes.count + 2) (p : Prefixes) :
    notePrefix p s = .fault .instructionTooLong := withinLength_of_lt h _

/-- An instruction that is not too long is refused where R77 refuses one of its prefixes. -/
theorem exec_of_refusedOn {i : Instr} (hi : i.isPrefix = false) {s : State} (hl : s.prefixes.count + i.opLength ≤ 15)
    {e : DecodeError} (he : s.prefixes.refusedOn i.isString = some e) : exec i s = .refused (s.refusalFor e) := by
  obtain ⟨k, hk⟩ := exec_accepting hi s
  rw [hk, accepting, withinLength_of_le hl, he]

/-- Settles O6: a byte of no row is refused by the fetch, and a refused prefix by the instruction after it. -/
theorem outOfScopeBytesRefused : Obligations.OutOfScopeBytesRefused := by
  refine ⟨fun s b h hrow hpre => step_of_outOfScope h hpre hrow, fun s i hi hl => ⟨fun hlock => ?_, ?_, ?_⟩⟩
  · exact exec_of_refusedOn hi hl (refusedOn_lock hlock _)
  · exact fun hlock hrepne => exec_of_refusedOn hi hl (refusedOn_repne hlock hrepne _)
  · rintro ⟨hrep, hrepne, hlock⟩ hstring
    exact exec_of_refusedOn hi hl (hstring ▸ refusedOn_rep hlock hrepne hrep)

/-- Settles O7: every row asks for its length first. -/
theorem longInstructionNotExecuted : Obligations.LongInstructionNotExecuted := by
  refine fun s i => ⟨fun hi hl => ?_, fun hi hl => ?_⟩
  · obtain ⟨k, hk⟩ := exec_accepting hi s
    rw [hk, accepting, withinLength_of_lt hl]
  · rw [exec_of_isPrefix hi, notePrefix_of_lt hl]

/-- Settles O9: the step records the byte, where an opcode still fits. -/
theorem undefinedPrefixBytesRecord : Obligations.UndefinedPrefixBytesRecord := by
  refine fun s => ⟨fun h => ?_, fun h => ?_⟩
  · rw [step_of_prefixByte (by decide) h, recorded_F2]
    exact ⟨fun hl => notePrefix_of_le hl _, fun hl => notePrefix_of_lt hl _⟩
  · rw [step_of_prefixByte (by decide) h, recorded_F0]
    exact ⟨fun hl => notePrefix_of_le hl _, fun hl => notePrefix_of_lt hl _⟩

/-- Settles O10: each row's record is the one `Prefixes.note` gives. -/
theorem prefixRowsRecord : Obligations.PrefixRowsRecord := by
  intro s hl
  have row {i : Instr} (hi : i.isPrefix = true) : exec i s = .next (s.setPrefixes (s.prefixes.note i)) := by
    rw [exec_of_isPrefix hi, notePrefix_of_le hl]
  exact ⟨row rfl, row rfl, row rfl, row rfl, row rfl, row rfl, row rfl, row rfl, row rfl⟩

/-! ### An instruction with its prefixes (30_encoding.md R74, R81; notes/assumptions/1.md) -/

/-- A run over prefix bytes, with room for an opcode after the last of them, is the run from where all are recorded. -/
theorem run_prefixBytes {pre rest : List Byte} {s : State} (hpre : ∀ b ∈ pre, b ∈ prefixBytes)
    (hl : s.prefixes.count + pre.length ≤ 14) (h : s.FetchesBytes (pre ++ rest)) (k : Nat) :
    Host.Core.run core (pre.length + k) s = Host.Core.run core k (s.setPrefixes (pre.foldl recorded s.prefixes)) := by
  induction pre generalizing s with
  | nil => rw [List.length_nil, Nat.zero_add]; rfl
  | cons b pre ih =>
    obtain ⟨hb, hpre⟩ := List.forall_mem_cons.1 hpre
    rw [List.length_cons] at hl
    have hstep : step s = .next (s.setPrefixes (recorded s.prefixes b)) := by
      rw [step_of_prefixByte hb (State.FetchesBytes.left (as := [b]) h), notePrefix_of_le (by omega)]
    have htail : (s.setPrefixes (recorded s.prefixes b)).FetchesBytes (pre ++ rest) := State.FetchesBytes.tail h rfl
    have hroom : (s.setPrefixes (recorded s.prefixes b)).prefixes.count + pre.length ≤ 14 := by
      rw [State.setPrefixes_prefixes, show (recorded s.prefixes b).count = s.prefixes.count + 1 from rfl]
      omega
    rw [List.length_cons, Nat.add_right_comm, run_succ, hstep]
    exact ih hpre hroom htail

/-- The bytes after the prefixes stand at the fetch once the prefixes are recorded. -/
theorem State.FetchesBytes.after_prefixBytes {pre rest : List Byte} {s : State} (h : s.FetchesBytes (pre ++ rest)) :
    (s.setPrefixes (pre.foldl recorded s.prefixes)).FetchesBytes rest := by
  induction pre generalizing s with
  | nil => exact h
  | cons b pre ih => exact ih (h.tail (p := recorded s.prefixes b) rfl)

theorem run_one (s : State) : Host.Core.run core 1 s = step s := by
  rw [run_succ]
  exact andThen_next_right _

/-- Settles O5: the prefix bytes are run, and the step after them is at the opcode with their record. -/
theorem prefixedInstructionRunsWhole : Obligations.PrefixedInstructionRunsWhole := by
  intro s pre i hnone hpre hi hlen hwf h
  have hroom : s.prefixes.count + pre.length ≤ 14 := by
    rw [hnone]
    exact (Nat.zero_add _).trans_le hlen
  have hafter := h.after_prefixBytes
  have hrun := run_prefixBytes hpre hroom h 1
  rw [hnone, ← recordOf] at hafter hrun
  rw [hrun, run_one, stepRunsDecodedInstruction (s.setPrefixes (recordOf pre)) i hwf hafter]

end Machine

end Sys2Proof
end

section
/-! The register I/O instructions (40_register_io.md R100 to R112): one rule for the forms of `IN` and one for those of
`OUT`, by the operation each form is; every statement takes its three forms from the rule. -/

namespace Sys2Proof.Machine

section
variable {s : State} {w : Width} {p : Port} {n : Nat}

/-! ### `IN` and `OUT` as operations (40_register_io.md R100) -/

/-- What `IN` leaves once the guards are passed. -/
theorem afterIn_eq (s : State) (w : Width) (p : Port) (n : Nat) :
    ((s.portRead p w).setAccumulator w (s.portValue w)).complete n = afterIn s w p n := by
  have hevent : s.portValue w = s.nextAnswer &&& maskOf w := truncTo_eq w s.nextAnswer
  have heax : insertLow w s.eax (s.portValue w) = merged (maskOf w) s.eax s.nextAnswer := by
    rw [insertLow_eq, hevent, merged, merged, BitVec.and_assoc, BitVec.and_self]
  rw [State.setAccumulator, State.portRead_eax, heax, State.portRead, hevent]
  rfl

/-- What `OUT` leaves once the guards are passed: the value is cut to the width once, however often that is asked. -/
theorem afterOut_eq (s : State) (w : Width) (p : Port) (n : Nat) :
    (s.portWrite p w (s.accumulator w)).complete n = afterOut s w p n := by
  have hevent : truncTo w (s.accumulator w) = s.eax &&& maskOf w := by
    rw [State.accumulator, truncTo_eq, truncTo_eq, BitVec.and_assoc, BitVec.and_self]
  rw [State.portWrite, hevent]
  rfl

theorem inputFrom_of_pass (hl : s.prefixes.count + n ≤ 15) (hr : Unrepeated s) (hc : s.ioCheck p w = .pass)
    (hp : p.toNat + bytesOf w - 1 ≤ 65535) : inputFrom w p n s = .next (afterIn s w p n) := by
  rw [inputFrom, plain_of_accepted hl hr, guarded_of_pass hc hp, afterIn_eq]

theorem inputFrom_of_deny (hl : s.prefixes.count + n ≤ 15) (hr : Unrepeated s) (hc : s.ioCheck p w = .deny) :
    inputFrom w p n s = .fault (.generalProtection (.port p w)) := by
  rw [inputFrom, plain_of_accepted hl hr, guarded_of_deny hc]

theorem outputTo_of_pass (hl : s.prefixes.count + n ≤ 15) (hr : Unrepeated s) (hc : s.ioCheck p w = .pass)
    (hp : p.toNat + bytesOf w - 1 ≤ 65535) : outputTo w p n s = .next (afterOut s w p n) := by
  rw [outputTo, plain_of_accepted hl hr, guarded_of_pass hc hp, afterOut_eq]

theorem outputTo_of_deny (hl : s.prefixes.count + n ≤ 15) (hr : Unrepeated s) (hc : s.ioCheck p w = .deny) :
    outputTo w p n s = .fault (.generalProtection (.port p w)) := by
  rw [outputTo, plain_of_accepted hl hr, guarded_of_deny hc]

end

/-! ### The rule of a form -/

section
variable {i : Instr} {w : Width} {port : State → Port} {size : Option SizeAttr} {bytes : List Byte}

theorem EncodedAs.opLength_eq (h : EncodedAs i size bytes) : i.opLength = bytes.length := congrArg List.length h.2

/-- A row that transfers into the accumulator follows the rule of `IN` for its port, its width and its bytes. -/
theorem inRule_of_transferOf (he : EncodedAs i size bytes) (hi : isIn i = true)
    (ht : ∀ s, transferOf i s = some (port s, w)) : InRule i w port size bytes := by
  refine ⟨he, fun s hl hr => ?_⟩
  rw [exec_of_isIn hi (ht s), he.opLength_eq]
  exact ⟨inputFrom_of_pass hl hr, inputFrom_of_deny hl hr⟩

/-- A row that transfers, but neither into the accumulator nor between a port and memory, follows the rule of `OUT`. -/
theorem outRule_of_transferOf (he : EncodedAs i size bytes) (hi : isIn i = false) (hs : i.isString = false)
    (ht : ∀ s, transferOf i s = some (port s, w)) : OutRule i w port size bytes := by
  refine ⟨he, fun s hl hr => ?_⟩
  rw [exec_of_isOut hi hs (ht s), he.opLength_eq]
  exact ⟨outputTo_of_pass hl hr, outputTo_of_deny hl hr⟩

end

/-! ### The statements -/

/-- Settles O11: the rule of `IN` at the port the immediate byte names. -/
theorem inFromImmediatePort : Obligations.InFromImmediatePort := fun _ =>
  ⟨inRule_of_transferOf ⟨rfl, rfl⟩ rfl fun _ => rfl, inRule_of_transferOf ⟨rfl, rfl⟩ rfl fun _ => rfl,
    inRule_of_transferOf ⟨rfl, rfl⟩ rfl fun _ => rfl⟩

/-- Settles O12: the rule of `IN` at the port in `DX`. -/
theorem inFromDxPort : Obligations.InFromDxPort :=
  ⟨inRule_of_transferOf ⟨rfl, rfl⟩ rfl fun _ => rfl, inRule_of_transferOf ⟨rfl, rfl⟩ rfl fun _ => rfl,
    inRule_of_transferOf ⟨rfl, rfl⟩ rfl fun _ => rfl⟩

/-- Settles O13: the rule of `OUT` at the port the immediate byte names. -/
theorem outToImmediatePort : Obligations.OutToImmediatePort := fun _ =>
  ⟨outRule_of_transferOf ⟨rfl, rfl⟩ rfl rfl fun _ => rfl, outRule_of_transferOf ⟨rfl, rfl⟩ rfl rfl fun _ => rfl,
    outRule_of_transferOf ⟨rfl, rfl⟩ rfl rfl fun _ => rfl⟩

/-- Settles O14: the rule of `OUT` at the port in `DX`. -/
theorem outToDxPort : Obligations.OutToDxPort :=
  ⟨outRule_of_transferOf ⟨rfl, rfl⟩ rfl rfl fun _ => rfl, outRule_of_transferOf ⟨rfl, rfl⟩ rfl rfl fun _ => rfl,
    outRule_of_transferOf ⟨rfl, rfl⟩ rfl rfl fun _ => rfl⟩

end Sys2Proof.Machine
end

section
/-! The block I/O instructions (41_block_io.md): the place of the operand, one element of `INS` and of
`OUTS`, and `REP` around an element. -/

namespace Sys2Proof.Machine

/-! ### Registers at an address size (30_encoding.md R75; 41_block_io.md R120, R130) -/

/-- The mask of an address size keeps the low bits, as a remainder does. -/
theorem toNat_and_sizeMask (a : SizeAttr) (x : Word) :
    (x &&& sizeMask a).toNat = x.toNat % (sizeMask a).toNat.succ := by
  rw [BitVec.toNat_and]
  cases a
  · exact Nat.and_two_pow_sub_one_eq_mod x.toNat 16
  · exact Nat.and_two_pow_sub_one_eq_mod x.toNat 32

theorem and_sizeMask_eq_iff {a : SizeAttr} {x y : Word} :
    x &&& sizeMask a = y &&& sizeMask a ↔ x.toNat % (sizeMask a).toNat.succ = y.toNat % (sizeMask a).toNat.succ := by
  rw [BitVec.toNat_eq, toNat_and_sizeMask, toNat_and_sizeMask]

/-- Addition and subtraction look no further than the bits they are asked for. -/
theorem add_and_sizeMask_congr {a : SizeAttr} {x y : Word} (h : x &&& sizeMask a = y &&& sizeMask a) (n : Word) :
    (x + n) &&& sizeMask a = (y + n) &&& sizeMask a := by
  rw [and_sizeMask_eq_iff] at h ⊢
  rw [BitVec.toNat_add, BitVec.toNat_add]
  cases a <;> simp only [sizeMask, BitVec.reduceToNat, Nat.succ_eq_add_one, Nat.reduceAdd] at h ⊢ <;> omega

theorem sub_and_sizeMask_congr {a : SizeAttr} {x y : Word} (h : x &&& sizeMask a = y &&& sizeMask a) (n : Word) :
    (x - n) &&& sizeMask a = (y - n) &&& sizeMask a := by
  rw [BitVec.sub_eq_add_neg, BitVec.sub_eq_add_neg]
  exact add_and_sizeMask_congr h (-n)

theorem and_sizeMask_and_sizeMask (a : SizeAttr) (x : Word) : x &&& sizeMask a &&& sizeMask a = x &&& sizeMask a := by
  rw [BitVec.and_assoc, BitVec.and_self]

/-- A count is 1 exactly where one less is 0. -/
theorem sub_one_and_sizeMask_eq_zero_iff (a : SizeAttr) (x : Word) :
    (x - 1) &&& sizeMask a = 0 ↔ x &&& sizeMask a = 1 := by
  rw [BitVec.toNat_eq, BitVec.toNat_eq, toNat_and_sizeMask, toNat_and_sizeMask, BitVec.toNat_sub]
  cases a <;>
    simp only [sizeMask, BitVec.reduceToNat, Nat.succ_eq_add_one, Nat.reduceAdd, BitVec.ofNat_eq_ofNat] <;> omega

theorem getElem_merged (m r v : Word) {j : Nat} (hj : j < 32) :
    (merged m r v)[j] = if m[j] = true then v[j] else r[j] := by
  simp only [merged, BitVec.getElem_and, BitVec.getElem_or, BitVec.getElem_not]
  cases m[j] <;> simp

/-- What the mask covers of a merged register is the new value's. -/
theorem merged_and_mask (m r v : Word) : merged m r v &&& m = v &&& m := by
  ext j hj
  rw [BitVec.getElem_and, BitVec.getElem_and, getElem_merged]
  cases m[j] <;> simp

theorem merged_merged (m r v v' : Word) : merged m (merged m r v) v' = merged m r v' := by
  ext j hj
  simp only [getElem_merged]
  split_ifs <;> rfl

theorem merged_self (m r : Word) : merged m r r = r := by
  ext j hj
  rw [getElem_merged, ite_self]

theorem merged_congr {m v v' : Word} (r : Word) (h : v &&& m = v' &&& m) : merged m r v = merged m r v' := by
  rw [merged, merged, h]

theorem stepped_zero (down : Bool) (r : Word) (n : Nat) : stepped down r 0 n = r := by
  cases down <;> simp [stepped]

/-- Steps of an index add up. -/
theorem stepped_succ (down : Bool) (r : Word) (k n : Nat) :
    stepped down r (k + 1) n = stepped down (stepped down r k n) 1 n := by
  cases down
  · simp [stepped, Nat.add_mul, BitVec.ofNat_add, BitVec.add_assoc]
  · simp [stepped, Nat.add_mul, BitVec.ofNat_add, BitVec.sub_sub]

theorem stepped_and_sizeMask_congr {a : SizeAttr} {x y : Word} (h : x &&& sizeMask a = y &&& sizeMask a) (down : Bool)
    (k n : Nat) : stepped down x k n &&& sizeMask a = stepped down y k n &&& sizeMask a := by
  cases down
  · exact add_and_sizeMask_congr h _
  · exact sub_and_sizeMask_congr h _

/-- The index of the next element, where the register kept the bits above the address size. -/
theorem merged_stepped_succ (a : SizeAttr) (down : Bool) (r : Word) (k n : Nat) :
    merged (sizeMask a) (merged (sizeMask a) r (stepped down r k n))
        (stepped down (merged (sizeMask a) r (stepped down r k n)) 1 n) =
      merged (sizeMask a) r (stepped down r (k + 1) n) := by
  rw [merged_merged, stepped_succ down r k n]
  exact merged_congr r (stepped_and_sizeMask_congr (merged_and_mask ..) down 1 n)

/-! ### The place of the operand (41_block_io.md R120, R129) -/

/-- `Seg` looks at the segment registers and at its clauses alone. -/
theorem State.segLocations_congr {s t : State} (hcfg : t.cfg = s.cfg) (hseg : ∀ r, t.segment r = s.segment r) :
    t.segLocations = s.segLocations := by
  funext size r off w write
  simp only [State.segLocations, hcfg, hseg]

theorem State.segLocations_setPrefixes (s : State) (p : Prefixes) :
    (s.setPrefixes p).segLocations = s.segLocations :=
  State.segLocations_congr rfl fun r => by cases r <;> rfl

theorem State.insLocations_eq (s : State) (w : Width) :
    s.insLocations w = s.segLocations s.addressSize .es (s.edi &&& sizeMask s.addressSize) w true := by
  rw [State.insLocations, sizedRead_eq]

theorem State.outsLocations_eq (s : State) (w : Width) :
    s.outsLocations w = s.segLocations s.addressSize s.outsSegment (s.esi &&& sizeMask s.addressSize) w false := by
  rw [State.outsLocations, sizedRead_eq]

/-- Settles O18: of the prefixes both operands read the address size, and that of `OUTS` the override. -/
theorem blockOperandSegment : Obligations.BlockOperandSegment := by
  intro s w at_
  refine ⟨fun o => ?_, ?_, fun r => ?_⟩
  · rw [State.insLocations_eq, State.segLocations_setPrefixes]; rfl
  · rw [State.outsLocations_eq, State.segLocations_setPrefixes]; rfl
  · rw [State.outsLocations_eq, State.segLocations_setPrefixes]; rfl

/-! ### One element (41_block_io.md R121 to R128) -/

section
variable {s : State} {w : Width} {as : List Nat}

theorem State.stepEdi_eq (s : State) (w : Width) : s.stepEdi w = { s with edi := indexAfter s w s.edi } := by
  rw [State.stepEdi, steppedIndex_eq]; rfl

theorem State.portValue_eq (s : State) (w : Width) : s.portValue w = s.nextAnswer &&& maskOf w := truncTo_eq w _

theorem insElement_of_deny (hc : s.ioCheck s.dxPort w = .deny) :
    insElement w s = .fault (.generalProtection (.port s.dxPort w)) := guarded_of_deny hc

theorem outsElement_of_deny (hc : s.ioCheck s.dxPort w = .deny) :
    outsElement w s = .fault (.generalProtection (.port s.dxPort w)) := guarded_of_deny hc

/-- An element of `INS`: the port's answer goes to the operand, a device in it sees the write after the port read. -/
theorem insElement_of_pass (hc : s.ioCheck s.dxPort w = .pass) (hp : s.dxPort.toNat + bytesOf w - 1 ≤ 65535)
    (ha : s.insLocations w = some as) (ho : s.overlapsText as = false) :
    insElement w s = .next { s with
      edi := indexAfter s w s.edi
      mem := Memory.storeLE s.isDevice s.mem as (s.nextAnswer &&& maskOf w)
      events := s.events ++ (.portRead s.dxPort w (s.nextAnswer &&& maskOf w) ::
        if s.touchesDevice as then [.deviceWrite as (s.nextAnswer &&& maskOf w)] else [])
      inputs := s.inputs.tail
      draws := s.draws + 1 } := by
  rw [insElement, guarded_of_pass hc hp, ha]
  simp only [ho, Bool.false_eq_true, if_false, State.stepEdi_eq, State.memWrite_eq, State.portRead_events,
    State.portValue_eq, List.append_assoc, List.singleton_append]
  rfl

theorem insElement_of_none (hc : s.ioCheck s.dxPort w = .pass) (hp : s.dxPort.toNat + bytesOf w - 1 ≤ 65535)
    (ha : s.insLocations w = none) : insElement w s = .refused .insDestinationNotWritable := by
  rw [insElement, guarded_of_pass hc hp, ha]

theorem insElement_of_text (hc : s.ioCheck s.dxPort w = .pass) (hp : s.dxPort.toNat + bytesOf w - 1 ≤ 65535)
    (ha : s.insLocations w = some as) (ho : s.overlapsText as = true) :
    insElement w s = .refused .insIntoProgramText := by
  rw [insElement, guarded_of_pass hc hp, ha]
  simp only [ho, if_true]

theorem State.touchesDevice_eq_false (h : ∀ a ∈ as, s.isDevice a = false) : s.touchesDevice as = false :=
  List.any_eq_false.2 fun a ha => Bool.eq_false_iff.1 (h a ha)

/-- An element of `OUTS` from plain memory: its bytes go to the port. -/
theorem outsElement_of_memory (hc : s.ioCheck s.dxPort w = .pass) (hp : s.dxPort.toNat + bytesOf w - 1 ≤ 65535)
    (ha : s.outsLocations w = some as) (hdev : ∀ a ∈ as, s.isDevice a = false) :
    outsElement w s = .next { s with
      esi := indexAfter s w s.esi
      events := s.events ++ [.portWrite s.dxPort w (littleEndian s.mem as)] } := by
  have hread : s.memRead as = s := by rw [State.memRead_eq, State.touchesDevice_eq_false hdev]; rfl
  have hlen : as.length = bytesOf w := (State.segLocations_some ha).1.trans (widthBytes_eq w)
  have hvalue : truncTo w (s.memValue as) = littleEndian s.mem as := by
    rw [truncTo_eq, State.memValue_and_maskOf hlen, State.memValue, loadLE_eq _ _ _ hdev]
  rw [outsElement, guarded_of_pass hc hp, ha]
  simp only [hread, State.portWrite, hvalue, State.stepEsi_eq]
  rfl

theorem outsElement_of_none (hc : s.ioCheck s.dxPort w = .pass) (hp : s.dxPort.toNat + bytesOf w - 1 ≤ 65535)
    (ha : s.outsLocations w = none) : outsElement w s = .fault (.memoryOperand s.outsSegment) := by
  rw [outsElement, guarded_of_pass hc hp, ha]

end

/-- The bits that a transfer of width `w` moves are those below the width. -/
theorem getLsbD_maskOf (w : Width) (j : Nat) : (maskOf w).getLsbD j = decide (j < 8 * bytesOf w) := by
  rw [BitVec.getLsbD, maskOf_toNat, Nat.testBit_two_pow_sub_one]

/-- Cutting a value to the width leaves its bytes. -/
theorem byte_and_maskOf (v : Word) {w : Width} {k : Nat} (hk : k < bytesOf w) :
    ((v &&& maskOf w) >>> (8 * k)).setWidth 8 = v.extractLsb' (8 * k) 8 := by
  ext i hi
  rw [BitVec.getElem_setWidth, BitVec.getLsbD_ushiftRight, BitVec.getLsbD_and, getLsbD_maskOf,
    BitVec.getElem_extractLsb', decide_eq_true (by omega), Bool.and_true]

/-- Byte `k` of an answer stored at its width is at the `k`-th location (20_memory.md R53). -/
theorem read_storedAnswer {dev : Nat → Bool} {m : Memory} (hm : Memory.wf m) {as : List Nat} {w : Width}
    (hn : as.Nodup) (hlen : as.length = bytesOf w) {k a : Nat} (hk : as[k]? = some a) (hd : dev a = false) (v : Word) :
    Memory.read (Memory.storeLE dev m as (v &&& maskOf w)) a = v.extractLsb' (8 * k) 8 := by
  have hlt : k < bytesOf w := hlen ▸ (List.getElem?_eq_some_iff.1 hk).1
  rw [Memory.read_storeLE_inside dev hm hn _ hk hd, byte_and_maskOf v hlt]

section
variable {i : Instr} {w : Width} {size : Option SizeAttr} {bytes : List Byte}

/-- The machine after an `INS` into the operand at `as`. -/
def afterIns (s : State) (w : Width) (as : List Nat) : State :=
  { advanced s 1 with
    edi := indexAfter s w s.edi
    mem := Memory.storeLE s.isDevice s.mem as (s.nextAnswer &&& maskOf w)
    events := s.events ++ (.portRead s.dxPort w (s.nextAnswer &&& maskOf w) ::
      if s.touchesDevice as then [.deviceWrite as (s.nextAnswer &&& maskOf w)] else [])
    inputs := s.inputs.tail
    draws := s.draws + 1 }

theorem exec_eq_afterIns {s : State} {as : List Nat} (hi : insWidth i = some w) (hl : s.prefixes.count + 1 ≤ 15)
    (hr : Unrepeated s) (hc : s.ioCheck s.dxPort w = .pass) (hp : s.dxPort.toNat + bytesOf w - 1 ≤ 65535)
    (ha : s.insLocations w = some as) (ho : s.overlapsText as = false) : exec i s = .next (afterIns s w as) := by
  rw [exec_of_insWidth hi, repeated_of_unrepeated hl hr, insElement_of_pass hc hp ha ho]; rfl

/-- A row of `INS` follows the rule of `INS` for its width and its bytes. -/
theorem insRule_of_insWidth (hi : insWidth i = some w) (he : EncodedAs i size bytes) : InsRule i w size bytes := by
  refine ⟨he, fun s hl hr => ?_⟩
  refine ⟨fun as hwf hc hp ha ho => ?_, fun hc => ?_, fun hc hp ha => ?_, fun as hc hp ha ho => ?_⟩
  · obtain ⟨hlen, hnodup, -⟩ := State.segLocations_some ha
    rw [widthBytes_eq] at hlen
    refine ⟨_, exec_eq_afterIns hi hl hr hc hp ha ho, rfl, ⟨hlen, fun k a hk hd => ?_⟩, fun x hx => ?_⟩
    · exact read_storedAnswer hwf hnodup hlen hk hd s.nextAnswer
    · exact Memory.read_storeLE_other _ _ _ hx
  · rw [exec_of_insWidth hi, repeated_of_unrepeated hl hr, insElement_of_deny hc]; rfl
  · rw [exec_of_insWidth hi, repeated_of_unrepeated hl hr, insElement_of_none hc hp ha]; rfl
  · rw [exec_of_insWidth hi, repeated_of_unrepeated hl hr, insElement_of_text hc hp ha ho]; rfl

/-- A row of `OUTS` follows the rule of `OUTS` for its width and its bytes. -/
theorem outsRule_of_outsWidth (hi : outsWidth i = some w) (he : EncodedAs i size bytes) : OutsRule i w size bytes := by
  refine ⟨he, fun s hl hr => ?_⟩
  rw [exec_of_outsWidth hi, repeated_of_unrepeated hl hr]
  refine ⟨fun as hc hp ha hdev => ?_, fun hc => ?_, fun hc hp ha => ?_⟩
  · rw [outsElement_of_memory hc hp ha hdev]; rfl
  · rw [outsElement_of_deny hc]; rfl
  · rw [outsElement_of_none hc hp ha]; rfl

end

/-- Settles O15: the three widths of one rule. -/
theorem insTransfersOneElement : Obligations.InsTransfersOneElement :=
  ⟨insRule_of_insWidth rfl ⟨rfl, rfl⟩, insRule_of_insWidth rfl ⟨rfl, rfl⟩, insRule_of_insWidth rfl ⟨rfl, rfl⟩⟩

/-- Settles O16: the three widths of one rule. -/
theorem outsTransfersOneElement : Obligations.OutsTransfersOneElement :=
  ⟨outsRule_of_outsWidth rfl ⟨rfl, rfl⟩, outsRule_of_outsWidth rfl ⟨rfl, rfl⟩, outsRule_of_outsWidth rfl ⟨rfl, rfl⟩⟩

/-! ### `REP` around an element (41_block_io.md R127) -/

/-- Settles O21: the count is looked at before the element, which makes the check. -/
theorem repZeroCountOnlyAdvances : Obligations.RepZeroCountOnlyAdvances := by
  intro s i hs hr hl hcount
  have hzero : ∀ element, repeated s element = .next (advanced s 1) := fun element => by
    rw [repeated, accepting_of_repeated hl hr, if_pos hr.1, if_pos ((repeatCount_eq s).trans hcount)]; rfl
  obtain ⟨w, hw⟩ | ⟨w, hw⟩ := width_of_isString hs
  · rw [exec_of_insWidth hw, hzero]
  · rw [exec_of_outsWidth hw, hzero]

/-- The machine without `F3` in its prefix record, the other prefixes kept. -/
def State.withoutRep (s : State) : State := s.setPrefixes { s.prefixes with rep := false }

theorem State.withoutRep_unrepeated {s : State} (hrepne : s.prefixes.repne = false) (hlock : s.prefixes.lock = false) :
    Unrepeated s.withoutRep := ⟨rfl, hrepne, hlock⟩

theorem State.withoutRep_insLocations (s : State) : s.withoutRep.insLocations = s.insLocations := by
  funext w
  rw [State.insLocations_eq, State.insLocations_eq, State.withoutRep, State.segLocations_setPrefixes]; rfl

theorem State.withoutRep_outsLocations (s : State) : s.withoutRep.outsLocations = s.outsLocations := by
  funext w
  rw [State.outsLocations_eq, State.outsLocations_eq, State.withoutRep, State.segLocations_setPrefixes]; rfl

theorem State.withoutRep_ioCheck (s : State) : s.withoutRep.ioCheck = s.ioCheck := rfl

/-- The guard of a transfer does not look at `F3`. -/
theorem guarded_withoutRep {s : State} {p : Port} {w : Width} {k : State → Result}
    (hk : k s.withoutRep = andThen (k s) fun u => .next u.withoutRep) :
    guarded p w s.withoutRep k = andThen (guarded p w s k) fun u => .next u.withoutRep := by
  rw [guarded, guarded, State.withoutRep_ioCheck, hk]
  cases s.ioCheck p w with
  | deny => rfl
  | refuse r => rfl
  | pass => dsimp only; split_ifs <;> rfl

/-- An element of `INS` does not look at `F3`. -/
theorem insElement_withoutRep (w : Width) (s : State) :
    insElement w s.withoutRep = andThen (insElement w s) fun u => .next u.withoutRep := by
  refine guarded_withoutRep ?_
  simp only [State.withoutRep_insLocations]
  cases s.insLocations w with
  | none => rfl
  | some as =>
    have htext : s.withoutRep.overlapsText as = s.overlapsText as := rfl
    simp only [htext]
    split_ifs
    · rfl
    · simp only [andThen, State.memWrite_eq]; rfl

/-- An element of `OUTS` does not look at `F3`. -/
theorem outsElement_withoutRep (w : Width) (s : State) :
    outsElement w s.withoutRep = andThen (outsElement w s) fun u => .next u.withoutRep := by
  refine guarded_withoutRep ?_
  simp only [State.withoutRep_outsLocations]
  cases s.outsLocations w with
  | none => rfl
  | some as =>
    have hdev : s.withoutRep.touchesDevice as = s.touchesDevice as := rfl
    simp only [andThen, State.memRead_eq, hdev]
    split_ifs <;> rfl

/-- A string instruction repeats an element, and the element is the same without `F3`. -/
theorem exists_element {i : Instr} (h : i.isString = true) :
    ∃ element : State → Result, (∀ s, exec i s = repeated s element) ∧
      (∀ s, element s.withoutRep = andThen (element s) fun u => .next u.withoutRep) ∧
      ∀ s u, element s = .next u → Element s i u := by
  obtain ⟨w, hw⟩ | ⟨w, hw⟩ := width_of_isString h
  · exact ⟨_, exec_of_insWidth hw, insElement_withoutRep w, fun _ _ => insElement_element hw⟩
  · exact ⟨_, exec_of_outsWidth hw, outsElement_withoutRep w, fun _ _ => outsElement_element hw⟩

theorem isPrefix_of_isString {i : Instr} (h : i.isString = true) : i.isPrefix = false := by
  cases i <;> simp_all [Instr.isString, Instr.isPrefix]

/-- A string instruction that is too long, or that has `F2` or `F0` before it, stops in the same way with `F3` and
without. -/
theorem exec_stops_withoutRep {i : Instr} {s : State} (h : i.isString = true)
    (hstop : ¬ (s.prefixes.count + 1 ≤ 15 ∧ s.prefixes.repne = false ∧ s.prefixes.lock = false)) :
    (∃ e, exec i s.withoutRep = .fault e ∧ exec i s = .fault e) ∨
      ∃ e, exec i s.withoutRep = .refused e ∧ exec i s = .refused e := by
  have hlen := opLength_of_isString h
  have hprefix := isPrefix_of_isString h
  have long (t : State) := (longInstructionNotExecuted t i).1 hprefix
  have refused (t : State) := outOfScopeBytesRefused.2 t i hprefix
  rw [hlen] at long refused
  by_cases hl : s.prefixes.count + 1 ≤ 15
  · right
    cases hlock : s.prefixes.lock with
    | true => exact ⟨_, (refused s.withoutRep hl).1 hlock, (refused s hl).1 hlock⟩
    | false =>
      have hrepne : s.prefixes.repne = true := by
        rw [← Bool.not_eq_false]; exact fun hrepne => hstop ⟨hl, hrepne, hlock⟩
      exact ⟨_, (refused s.withoutRep hl).2.1 hlock hrepne, (refused s hl).2.1 hlock hrepne⟩
  · left
    rw [Nat.not_le] at hl
    exact ⟨_, long s.withoutRep hl, long s hl⟩

/-- After an element the count is one less, and the instruction ends where that is 0. -/
theorem counted_eq (u : State) :
    (let t := u.setRepeatCount (u.repeatCount - 1)
     if t.repeatCount = 0 then t.complete 1 else t.again) =
      { u.complete 1 with
        ecx := merged (sizeMask u.addressSize) u.ecx (u.ecx - 1)
        pc := if countOf u = 1 then u.pc + BitVec.ofNat 32 (u.prefixes.count + 1) else u.pc } := by
  have hecx : (u.setRepeatCount (u.repeatCount - 1)).ecx = merged (sizeMask u.addressSize) u.ecx (u.ecx - 1) := by
    rw [State.setRepeatCount_ecx, sizedWrite_eq, repeatCount_eq]
    exact merged_congr _ (sub_and_sizeMask_congr (and_sizeMask_and_sizeMask ..) 1)
  have hcount : (u.setRepeatCount (u.repeatCount - 1)).repeatCount = 0 ↔ countOf u = 1 := by
    have hsize : (u.setRepeatCount (u.repeatCount - 1)).addressSize = u.addressSize := rfl
    rw [repeatCount_eq, countOf, hecx, hsize, merged_and_mask, sub_one_and_sizeMask_eq_zero_iff, countOf]
  simp only [hcount, ← hecx]
  split_ifs <;> rfl

/-- Settles O22: with `F3` and without the element is the same, and the instruction differs by what comes after it. -/
theorem repStepIsOneElement : Obligations.RepStepIsOneElement := by
  intro s i hs hrep hcount
  rw [← State.withoutRep]
  by_cases hgo : s.prefixes.count + 1 ≤ 15 ∧ s.prefixes.repne = false ∧ s.prefixes.lock = false
  · obtain ⟨hl, hrepne, hlock⟩ := hgo
    obtain ⟨element, hexec, hwithout, hframe⟩ := exists_element hs
    have hr : Unrepeated s.withoutRep := State.withoutRep_unrepeated hrepne hlock
    rw [hexec s.withoutRep, repeated_of_unrepeated (s := s.withoutRep) hl hr, hwithout, hexec s,
      repeated_of_count hl ⟨hrep, hrepne, hlock⟩ ((repeatCount_eq s).trans_ne hcount)]
    cases hu : element s with
    | fault e => rfl
    | refused e => rfl
    | next u =>
      simp only [andThen, counted_eq]
      rw [(hframe s u hu).frame]; rfl
  · obtain ⟨e, hwithout, hwith⟩ | ⟨e, hwithout, hwith⟩ := exec_stops_withoutRep hs hgo
    · rw [hwithout]; exact hwith
    · rw [hwithout]; exact hwith

end Sys2Proof.Machine
end

section
/-! A whole `REP` block (41_block_io.md R127): what `REP` and its prefix bytes do around any element, then the
states of an `OUTS` block and of an `INS` block, one for each number of elements done. -/

namespace Sys2Proof.Machine

/-! ### Runs in equal parts -/

/-- A run is a run of its first part and then of the rest. -/
theorem run_add (m k : Nat) (s : State) :
    Host.Core.run core (m + k) s = andThen (Host.Core.run core m s) fun t => Host.Core.run core k t := by
  induction m generalizing s with
  | zero => rw [Nat.zero_add]; rfl
  | succ m ih =>
    rw [Nat.add_right_comm, run_succ, run_succ]
    cases step s with
    | next t => exact ih t
    | fault e => rfl
    | refused e => rfl

/-- States that `c` steps take each to the next are passed one after another. -/
theorem run_chain {c n : Nat} {at_ : Nat → State}
    (h : ∀ k < n, Host.Core.run core c (at_ k) = .next (at_ (k + 1))) :
    Host.Core.run core (c * n) (at_ 0) = .next (at_ n) := by
  induction n with
  | zero => rfl
  | succ n ih =>
    rw [Nat.mul_succ, run_add, ih fun k hk => h k (Nat.lt_succ_of_lt hk)]
    exact h n (Nat.lt_succ_self n)

/-! ### Between two elements -/

theorem recordOf_count (pre : List Byte) : (recordOf pre).count = pre.length := by
  induction pre using List.reverseRecOn with
  | nil => rfl
  | append_singleton pre b ih =>
    rw [recordOf_concat, List.length_append, List.length_singleton, ← ih]; rfl

/-- Elements still to do, where `k` of `n` are done. -/
theorem toNat_countdown {a : SizeAttr} {x : Word} {n k : Nat} (hn : (x &&& sizeMask a).toNat = n) (hk : k ≤ n) :
    (stepped true x k 1 &&& sizeMask a).toNat = n - k := by
  have hlt := x.isLt
  rw [toNat_and_sizeMask] at hn ⊢
  rw [stepped, if_pos rfl, Nat.mul_one, BitVec.toNat_sub, BitVec.toNat_ofNat]
  cases a <;> simp only [sizeMask, BitVec.reduceToNat, Nat.succ_eq_add_one, Nat.reduceAdd] at hn ⊢ <;> omega

/-- The bytes at the next fetch are the same where the place is the same and the program text is. -/
theorem State.FetchesBytes.congr {s u : State} {bs : List Byte} (h : s.FetchesBytes bs) (hpc : u.pc = s.pc)
    (hprefixes : u.prefixes = s.prefixes) (hcs : u.cs = s.cs) (hcfg : u.cfg = s.cfg)
    (htext : ∀ o, s.cfg.textStart ≤ o → o < s.cfg.textEnd →
      Memory.read u.mem (s.cs.base.toNat + o) = Memory.read s.mem (s.cs.base.toNat + o)) : u.FetchesBytes bs := by
  intro k b hk
  obtain ⟨hin, hread⟩ := h k b hk
  obtain ⟨hlo, hhi, -⟩ := State.inText_iff.1 hin
  have hoffset : u.fetchOffset = s.fetchOffset := by rw [State.fetchOffset, hpc, hprefixes]; rfl
  rw [hoffset, hcs, htext _ hlo hhi]
  exact ⟨by simpa only [State.inText, hcfg, hcs] using hin, hread⟩

/-- The address size of the elements of a block. -/
def blockSize (s : State) (pre : List Byte) : SizeAttr := (recordOf pre).addressSize s.cfg.defaultSize

/-- In `u` the block that starts at `s` has `k` elements done and more to do: the same instruction is about to be
fetched, and the count is `k` less. -/
structure BetweenElements (s : State) (pre : List Byte) (k : Nat) (u : State) : Prop where
  pc : u.pc = s.pc
  prefixes : u.prefixes = s.prefixes
  cs : u.cs = s.cs
  cfg : u.cfg = s.cfg
  text : ∀ o, s.cfg.textStart ≤ o → o < s.cfg.textEnd →
    Memory.read u.mem (s.cs.base.toNat + o) = Memory.read s.mem (s.cs.base.toNat + o)
  ecx : u.ecx = merged (sizeMask (blockSize s pre)) s.ecx (stepped true s.ecx k 1)

/-- `u` with the prefixes of the block but for `F3`: where the element of the block is the unprefixed instruction's. -/
def elementState (u : State) (pre : List Byte) : State := (u.setPrefixes (recordOf pre)).withoutRep

/-- `t` with the count and `pc` as they are after `k` of the `n` elements of the block that starts at `s`. -/
def afterElement (s : State) (pre : List Byte) (n k : Nat) (t : State) : State :=
  { t with
    ecx := merged (sizeMask (blockSize s pre)) s.ecx (stepped true s.ecx k 1)
    pc := if k = n then s.pc + BitVec.ofNat 32 (pre.length + 1) else s.pc }

section
variable {s u t : State} {pre : List Byte} {i : Instr} {w : Width} {n k : Nat}

theorem RepBlockAt.prefixes_eq (block : RepBlockAt s pre i n) : s.prefixes = Prefixes.none := block.1

theorem RepBlockAt.count_pos (block : RepBlockAt s pre i n) : 0 < n := by
  obtain ⟨-, -, -, -, -, -, -, -, -, hpos⟩ := block
  exact hpos

/-- The element of a block is an instruction that is not too long and that no prefix refuses. -/
theorem RepBlockAt.elementState_accepted (block : RepBlockAt s pre i n) (u : State) :
    (elementState u pre).prefixes.count + 1 ≤ 15 ∧ Unrepeated (elementState u pre) := by
  obtain ⟨-, -, -, hrepne, hlock, hlen, -⟩ := block
  refine ⟨?_, rfl, ?_, ?_⟩
  · rw [show (elementState u pre).prefixes.count = (recordOf pre).count from rfl, recordOf_count]; omega
  · exact Bool.eq_false_iff.2 (hrepne ∘ (recordOf_repne_iff pre).1)
  · exact Bool.eq_false_iff.2 (hlock ∘ (recordOf_lock_iff pre).1)

/-- The prefix bytes and one element of a block: what the unprefixed instruction does, the count, and `pc`. -/
theorem RepBlockAt.run_element (block : RepBlockAt s pre i n) (hs : i.isString = true) (hk : k < n)
    (hu : BetweenElements s pre k u) (ht : exec i (elementState u pre) = .next t) :
    Host.Core.run core (pre.length + 1) u = .next (afterElement s pre n (k + 1) t) := by
  obtain ⟨hnone, hpre, hrep, -, -, hlen, hwf, hfetch, hcount, -⟩ := block
  have hsize : (u.setPrefixes (recordOf pre)).addressSize = blockSize s pre := by
    rw [blockSize, ← hu.cfg]; rfl
  have hleft : (countOf (u.setPrefixes (recordOf pre))).toNat = n - k := by
    rw [countOf, hsize, State.setPrefixes_ecx, hu.ecx, merged_and_mask]
    exact toNat_countdown hcount hk.le
  have hne : countOf (u.setPrefixes (recordOf pre)) ≠ 0 := fun h0 => by
    rw [h0] at hleft; change 0 = n - k at hleft; omega
  have hlast : countOf (u.setPrefixes (recordOf pre)) = 1 ↔ k + 1 = n := by
    rw [BitVec.toNat_eq, hleft]; change n - k = 1 ↔ k + 1 = n; omega
  have hecx : merged (sizeMask (blockSize s pre)) u.ecx (u.ecx - 1) =
      merged (sizeMask (blockSize s pre)) s.ecx (stepped true s.ecx (k + 1) 1) := by
    rw [hu.ecx]; exact merged_stepped_succ (blockSize s pre) true s.ecx k 1
  have hstep := repStepIsOneElement (u.setPrefixes (recordOf pre)) i hs ((recordOf_rep_iff pre).2 hrep) hne
  rw [← State.withoutRep, ← elementState, ht] at hstep
  have hrun := prefixedInstructionRunsWhole u pre i (hu.prefixes.trans hnone) hpre (isPrefix_of_isString hs) hlen
    (hu.cfg ▸ hwf) (hfetch.congr hu.pc hu.prefixes hu.cs hu.cfg hu.text)
  rw [hrun, hstep, hsize, State.setPrefixes_ecx, hecx, State.setPrefixes_pc, State.setPrefixes_prefixes, recordOf_count,
    hu.pc, if_congr hlast rfl rfl]
  rfl

/-- At the end of a block the count is 0. -/
theorem RepBlockAt.ecx_at_end (block : RepBlockAt s pre i n) :
    merged (sizeMask (blockSize s pre)) s.ecx (stepped true s.ecx n 1) =
      merged (sizeMask (blockSize s pre)) s.ecx 0 := by
  obtain ⟨-, -, -, -, -, -, -, -, hcount, -⟩ := block
  refine merged_congr s.ecx (BitVec.eq_of_toNat_eq ?_)
  rw [toNat_countdown (a := blockSize s pre) hcount le_rfl, Nat.sub_self]
  exact (congrArg BitVec.toNat BitVec.zero_and).symm

end

/-! ### A block of `OUTS` -/

/-- The machine after `k` of the `n` elements of an `OUTS` block whose operands are at `locs`. -/
def outsBlock (s : State) (pre : List Byte) (w : Width) (locs : Nat → List Nat) (n k : Nat) : State :=
  afterElement s pre n k { s with
    esi := merged (sizeMask (blockSize s pre)) s.esi (stepped s.flags.direction s.esi k (bytesOf w))
    events := s.events ++ (List.range k).map fun j =>
      .portWrite (s.edx.setWidth 16) w (littleEndian s.mem (locs j)) }

section
variable {s : State} {pre : List Byte} {i : Instr} {w : Width} {n k : Nat} {locs : Nat → List Nat}

theorem outsBlock_zero (hn : 0 < n) : outsBlock s pre w locs n 0 = s := by
  simp only [outsBlock, afterElement, stepped_zero, merged_self, if_neg hn.ne, List.range_zero, List.map_nil,
    List.append_nil]

theorem outsBlock_between (hk : k < n) : BetweenElements s pre k (outsBlock s pre w locs n k) where
  pc := if_neg hk.ne
  prefixes := rfl
  cs := rfl
  cfg := rfl
  text _ _ _ := rfl
  ecx := rfl

/-- The operand of an element is where the index stepped so often has it: `Seg` sees the bits of the address size. -/
theorem outsBlock_outsLocations (s : State) (pre : List Byte) (w : Width) (locs : Nat → List Nat) (n k : Nat) :
    (elementState (outsBlock s pre w locs n k) pre).outsLocations w = (atElement s pre w k).outsLocations w := by
  have hseg : ((outsBlock s pre w locs n k).setPrefixes (recordOf pre)).segLocations =
      (atElement s pre w k).segLocations := State.segLocations_congr rfl fun r => by cases r <;> rfl
  rw [elementState, State.withoutRep_outsLocations, State.outsLocations_eq, State.outsLocations_eq, hseg]
  exact congrArg (fun off => (atElement s pre w k).segLocations _ _ off w false) (merged_and_mask ..)

/-- An element takes the block one element further. -/
theorem run_outsBlock (hi : outsWidth i = some w) (block : RepBlockAt s pre i n) (hk : k < n)
    (hc : s.ioCheck (s.edx.setWidth 16) w = .pass) (hp : (s.edx.setWidth 16).toNat + bytesOf w - 1 ≤ 65535)
    (ha : (atElement s pre w k).outsLocations w = some (locs k)) (hdev : ∀ a ∈ locs k, s.isDevice a = false) :
    Host.Core.run core (pre.length + 1) (outsBlock s pre w locs n k) = .next (outsBlock s pre w locs n (k + 1)) := by
  obtain ⟨hl, hr⟩ := block.elementState_accepted (outsBlock s pre w locs n k)
  rw [← outsBlock_outsLocations s pre w locs n k] at ha
  have helement := ((outsRule_of_outsWidth hi ⟨rfl, rfl⟩).2 _ hl hr).1 (locs k) hc hp ha hdev
  have hesi := merged_stepped_succ (blockSize s pre) s.flags.direction s.esi k (bytesOf w)
  rw [block.run_element (isString_of_outsWidth hi) hk (outsBlock_between hk) helement]
  simp only [outsBlock, afterElement, ← hesi, block.prefixes_eq, List.range_succ, List.map_append, ← List.append_assoc]
  rfl

end

/-- Settles O23: each of the elements takes the block one further, and at the end the count is 0. -/
theorem repOutsWritesBlock : Obligations.RepOutsWritesBlock := by
  intro s pre i w n locs hi block hc hp hlocs mask
  have hn : 0 < n := block.count_pos
  have hrun := run_chain (at_ := outsBlock s pre w locs n) fun k hk =>
    run_outsBlock hi block hk hc hp (hlocs k hk).1 (hlocs k hk).2
  rw [outsBlock_zero hn, outsBlock, afterElement, if_pos rfl, block.ecx_at_end] at hrun
  exact hrun

/-! ### A block of `INS` -/

/-- Memory after `k` answers of the environment have gone to the operands at `locs`. -/
def filledMem (s : State) (w : Width) (locs : Nat → List Nat) : Nat → Memory
  | 0 => s.mem
  | k + 1 => Memory.storeLE s.isDevice (filledMem s w locs k) (locs k) (answerAfter s k &&& maskOf w)

/-- The machine after `k` of the `n` elements of an `INS` block whose operands are at `locs`. -/
def insBlock (s : State) (pre : List Byte) (w : Width) (locs : Nat → List Nat) (n k : Nat) : State :=
  afterElement s pre n k { s with
    edi := merged (sizeMask (blockSize s pre)) s.edi (stepped s.flags.direction s.edi k (bytesOf w))
    mem := filledMem s w locs k
    events := s.events ++ (List.range k).map fun j =>
      .portRead (s.edx.setWidth 16) w (answerAfter s j &&& maskOf w)
    inputs := s.inputs.drop k
    draws := s.draws + k }

section
variable {s : State} {pre : List Byte} {i : Instr} {w : Width} {n k : Nat} {locs : Nat → List Nat}

theorem filledMem_wf (hm : Memory.wf s.mem) (w : Width) (locs : Nat → List Nat) (k : Nat) :
    Memory.wf (filledMem s w locs k) := by
  induction k with
  | zero => exact hm
  | succ k ih => exact Memory.storeLE_wf _ ih _ _

/-- Filling from element `m` on leaves alone what is in none of the operands from there on. -/
theorem read_filledMem_later {m x : Nat} (hmn : m ≤ n) (h : ∀ k, m ≤ k → k < n → x ∉ locs k) :
    Memory.read (filledMem s w locs n) x = Memory.read (filledMem s w locs m) x := by
  induction n, hmn using Nat.le_induction with
  | base => rfl
  | succ n hmn ih =>
    rw [filledMem, Memory.read_storeLE_other _ _ _ (.inl (h n hmn (Nat.lt_succ_self n)))]
    exact ih fun k hk hkn => h k hk (Nat.lt_succ_of_lt hkn)

/-- What is in no operand is as at the start. -/
theorem read_filledMem_other {x : Nat} (h : ∀ k < n, x ∉ locs k) :
    Memory.read (filledMem s w locs n) x = Memory.read s.mem x :=
  read_filledMem_later (Nat.zero_le n) fun k _ hk => h k hk

/-- Where no two operands overlap, each holds its answer at the end. -/
theorem read_filledMem_inside (hm : Memory.wf s.mem) (hdisjoint : ∀ j k, j < k → k < n → (locs j).Disjoint (locs k))
    (hk : k < n) (hnodup : (locs k).Nodup) (hlen : (locs k).length = bytesOf w)
    (hdev : ∀ a ∈ locs k, s.isDevice a = false) {j a : Nat} (hj : (locs k)[j]? = some a) :
    Memory.read (filledMem s w locs n) a = (answerAfter s k).extractLsb' (8 * j) 8 := by
  have hmem := List.mem_of_getElem? hj
  rw [read_filledMem_later (Nat.succ_le_of_lt hk) fun l hl hln => hdisjoint k l hl hln hmem, filledMem]
  exact read_storedAnswer (filledMem_wf hm w locs k) hnodup hlen hj (hdev a hmem) (answerAfter s k)

/-- The environment's answer is the first listed, or the free value. -/
theorem State.nextAnswer_eq (s : State) : s.nextAnswer = s.inputs.head?.getD (Config.answer s.draws) := by
  unfold State.nextAnswer
  cases s.inputs <;> rfl

theorem insBlock_nextAnswer (s : State) (pre : List Byte) (w : Width) (locs : Nat → List Nat) (n k : Nat) :
    (insBlock s pre w locs n k).nextAnswer = answerAfter s k := by
  rw [State.nextAnswer_eq, answerAfter, ← List.head?_drop]; rfl

theorem insBlock_zero (hn : 0 < n) : insBlock s pre w locs n 0 = s := by
  simp only [insBlock, afterElement, stepped_zero, merged_self, if_neg hn.ne, List.range_zero, List.map_nil,
    List.append_nil, filledMem, List.drop_zero, Nat.add_zero]

theorem insBlock_between (hk : k < n) (htext : ∀ j < n, s.overlapsText (locs j) = false) :
    BetweenElements s pre k (insBlock s pre w locs n k) where
  pc := if_neg hk.ne
  prefixes := rfl
  cs := rfl
  cfg := rfl
  text _ hlo hhi :=
    read_filledMem_other fun j hj => State.not_mem_of_overlapsText (htext j (hj.trans hk)) hlo hhi
  ecx := rfl

/-- The operand of an element is where the index stepped so often has it: `Seg` sees the bits of the address size. -/
theorem insBlock_insLocations (s : State) (pre : List Byte) (w : Width) (locs : Nat → List Nat) (n k : Nat) :
    (elementState (insBlock s pre w locs n k) pre).insLocations w = (atElement s pre w k).insLocations w := by
  have hseg : ((insBlock s pre w locs n k).setPrefixes (recordOf pre)).segLocations =
      (atElement s pre w k).segLocations := State.segLocations_congr rfl fun r => by cases r <;> rfl
  rw [elementState, State.withoutRep_insLocations, State.insLocations_eq, State.insLocations_eq, hseg]
  exact congrArg (fun off => (atElement s pre w k).segLocations _ .es off w true) (merged_and_mask ..)

/-- An element takes the block one element further. -/
theorem run_insBlock (hi : insWidth i = some w) (block : RepBlockAt s pre i n) (hk : k < n) (hmap : ¬ mapDecides s)
    (hp : (s.edx.setWidth 16).toNat + bytesOf w - 1 ≤ 65535)
    (ha : (atElement s pre w k).insLocations w = some (locs k)) (htext : ∀ j < n, s.overlapsText (locs j) = false)
    (hdev : ∀ a ∈ locs k, s.isDevice a = false) :
    Host.Core.run core (pre.length + 1) (insBlock s pre w locs n k) = .next (insBlock s pre w locs n (k + 1)) := by
  obtain ⟨hl, hr⟩ := block.elementState_accepted (insBlock s pre w locs n k)
  rw [← insBlock_insLocations s pre w locs n k] at ha
  have hc := ioCheck_of_not_mapDecides (s := elementState (insBlock s pre w locs n k) pre) hmap
    (s.edx.setWidth 16) w
  have htouch : (elementState (insBlock s pre w locs n k) pre).touchesDevice (locs k) = false :=
    State.touchesDevice_eq_false hdev
  have hanswer : (elementState (insBlock s pre w locs n k) pre).nextAnswer = answerAfter s k :=
    insBlock_nextAnswer s pre w locs n k
  have helement := exec_eq_afterIns hi hl hr hc hp ha (htext k hk)
  have hedi := merged_stepped_succ (blockSize s pre) s.flags.direction s.edi k (bytesOf w)
  rw [block.run_element (isString_of_insWidth hi) hk (insBlock_between hk htext) helement]
  simp only [afterIns, htouch, hanswer]
  simp only [insBlock, afterElement, ← hedi, block.prefixes_eq, List.range_succ, List.map_append, ← List.append_assoc,
    ← List.tail_drop]
  rfl

end

/-- Settles O24: each of the elements takes the block one further, and no later one touches what it stored. -/
theorem repInsFillsBlock : Obligations.RepInsFillsBlock := by
  intro s pre i w n locs hi block hm hmap hp hlocs hdisjoint mask
  have hn : 0 < n := block.count_pos
  have htext : ∀ k < n, s.overlapsText (locs k) = false := fun k hk => (hlocs k hk).2.1
  have hrun := run_chain (at_ := insBlock s pre w locs n) fun k hk =>
    run_insBlock hi block hk hmap hp (hlocs k hk).1 htext (hlocs k hk).2.2
  rw [insBlock_zero hn] at hrun
  refine ⟨_, hrun, ?_, fun k hk j a hj => ?_, fun x hx => read_filledMem_other hx⟩
  · rw [insBlock, afterElement, if_pos rfl, block.ecx_at_end]; rfl
  · obtain ⟨ha, -, hdev⟩ := hlocs k hk
    obtain ⟨hlen, hnodup, -⟩ := State.segLocations_some ha
    exact read_filledMem_inside hm hdisjoint hk hnodup (hlen.trans (widthBytes_eq w)) hdev hj

end Sys2Proof.Machine
end

section
/-! The flag instructions (42_flag_instructions.md): when each may write IF and IOPL, what it answers, and which steps
leave IF and IOPL alone. -/

namespace Sys2Proof.Machine

section
variable {s t u : State} {i : Instr}

/-! ### The three guards -/

theorem State.currentCpl_of_ne_virtual8086 (h : s.mode ≠ .virtual8086) : s.currentCpl = s.cpl := by
  cases hm : s.mode with
  | realMode | protectedMode => simp only [State.currentCpl, hm]
  | virtual8086 => exact absurd hm h

/-- The current CPL as the statements write it (60_exceptions.md R164; notes/assumptions/22.md). -/
theorem State.currentCpl_eq_ite (s : State) : s.currentCpl = if s.mode = .virtual8086 then 3 else s.cpl := by
  split
  next h => simp only [State.currentCpl, h]
  next h => exact State.currentCpl_of_ne_virtual8086 h

theorem State.sensitiveAllowed_iff : s.sensitiveAllowed = true ↔ s.mode = .realMode ∨ s.currentCpl ≤ s.flags.iopl := by
  cases hm : s.mode <;> simp [State.sensitiveAllowed, State.cplWithinIopl, hm]

theorem State.not_sensitiveAllowed (hmode : s.mode ≠ .realMode) (hcpl : s.flags.iopl < s.currentCpl) :
    ¬ s.sensitiveAllowed = true := by
  rw [State.sensitiveAllowed_iff, not_or, BitVec.not_le]
  exact ⟨hmode, hcpl⟩

theorem State.popfChangesIopl_iff : s.popfChangesIopl = true ↔ s.mode = .realMode ∨ s.currentCpl = 0 := by
  cases hm : s.mode <;> simp [State.popfChangesIopl, hm]

/-- `POPF` may write IF exactly where `CLI` and `STI` may (42_flag_instructions.md R151 to R153). -/
theorem State.popfChangesIf_eq (s : State) : s.popfChangesIf = s.sensitiveAllowed := by
  cases hm : s.mode <;> simp only [State.popfChangesIf, State.sensitiveAllowed, hm]

/-! ### `CLI` and `STI` -/

theorem sensitive_of_allowed {c : GpCause} {k : State → Result} (h : s.sensitiveAllowed = true) :
    sensitive c s k = k s := if_pos h

theorem sensitive_of_not_allowed {c : GpCause} {k : State → Result} (h : ¬ s.sensitiveAllowed = true) :
    sensitive c s k = .fault (.generalProtection c) := if_neg h

theorem exec_cli_of_accepted (hl : s.prefixes.count + 1 ≤ 15) (hr : Unrepeated s) :
    exec .cli s = sensitive .cli s fun s =>
      .next { advanced s 1 with flags := { s.flags with interruptEnable := false } } := by
  rw [exec, execCli, plain_of_accepted hl hr]; rfl

theorem exec_sti_of_accepted (hl : s.prefixes.count + 1 ≤ 15) (hr : Unrepeated s) :
    exec .sti s = sensitive .sti s fun s =>
      .next { advanced s 1 with flags := { s.flags with interruptEnable := true } } := by
  rw [exec, execSti, plain_of_accepted hl hr]; rfl

/-! ### `POPF` and `POPFD` -/

theorem exec_of_popf (hi : i = .popf ∨ i = .popfd) : exec i s = popFlags s := by
  obtain rfl | rfl := hi <;> rfl

/-- The two filters of R153, at the CPL that the mode leaves as it is. -/
theorem State.poppedFlags_eq (h : s.mode ≠ .virtual8086) (img : Word) : s.poppedFlags img = popped s img := by
  simp only [State.poppedFlags, popped, State.popfChangesIf_eq, State.sensitiveAllowed_iff, State.popfChangesIopl_iff,
    State.currentCpl_of_ne_virtual8086 h, imageDirection, imageInterruptEnable, imageIopl]

theorem popFlags_of_accepted (hl : s.prefixes.count + 1 ≤ 15) (hr : Unrepeated s) (hm : s.mode ≠ .virtual8086) :
    popFlags s = .next { advanced s 1 with
      flags := popped s s.nextAnswer
      esp := Config.stackPointerAfterPop s.draws
      inputs := s.inputs.tail
      draws := s.draws + 1 } := by
  rw [popFlags, plain_of_accepted hl hr, State.poppedFlags_eq hm]
  split
  next h => exact absurd h hm
  all_goals rfl

theorem popFlags_of_virtual8086 (hl : s.prefixes.count + 1 ≤ 15) (hr : Unrepeated s) (hm : s.mode = .virtual8086) :
    popFlags s = .refused .popfInVirtual8086 := by
  rw [popFlags, plain_of_accepted hl hr, hm]

/-! ### Which steps may change IOPL, and which IF -/

theorem State.poppedFlags_iopl_of_not (h : ¬ s.popfChangesIopl = true) (img : Word) :
    (s.poppedFlags img).iopl = s.flags.iopl := if_neg h

theorem State.poppedFlags_interruptEnable_of_not (h : ¬ s.sensitiveAllowed = true) (img : Word) :
    (s.poppedFlags img).interruptEnable = s.flags.interruptEnable := if_neg (s.popfChangesIf_eq ▸ h)

/-- IOPL changes only where `POPF` may change it (42_flag_instructions.md R153 (a)): no other instruction writes it. -/
theorem Ran.iopl_eq (h : Ran s i t) (hno : ¬ s.popfChangesIopl = true) : t.flags.iopl = s.flags.iopl := by
  cases h with
  | popf => exact State.poppedFlags_iopl_of_not hno s.nextAnswer
  | input | output | zeroCount | cli | sti | prefixByte => rfl
  | single _ _ _ hu | last _ _ _ _ hu | more _ _ _ _ hu => exact congrArg Flags.iopl hu.flags_eq

/-- IF changes only where the sensitive instructions may execute (R151, R152, R153 (b)): `CLI` and `STI` stop otherwise,
`POPF` drops the change. -/
theorem Ran.interruptEnable_eq (h : Ran s i t) (hno : ¬ s.sensitiveAllowed = true) :
    t.flags.interruptEnable = s.flags.interruptEnable := by
  cases h with
  | cli _ _ hallowed | sti _ _ hallowed => exact absurd hallowed hno
  | popf => exact State.poppedFlags_interruptEnable_of_not hno s.nextAnswer
  | input | output | zeroCount | prefixByte => rfl
  | single _ _ _ hu | last _ _ _ _ hu | more _ _ _ _ hu => exact congrArg Flags.interruptEnable hu.flags_eq

end

/-! ### The statements -/

/-- Settles O44: outside real mode and above level 0 `POPF` may not change IOPL, and nothing else writes it. -/
theorem ioplChangesOnlyAtLevelZero : Obligations.IoplChangesOnlyAtLevelZero := by
  intro s t h hmode hcpl
  have hno : ¬ s.popfChangesIopl = true := by
    rw [State.popfChangesIopl_iff, not_or]
    exact ⟨hmode, hcpl⟩
  obtain ⟨i, -, hr⟩ | ⟨p, -, -, rfl⟩ := step_ran h
  · exact hr.iopl_eq hno
  · rfl

/-- Settles O45: outside real mode and with CPL > IOPL no sensitive instruction is allowed, and `POPF` drops the change. -/
theorem ifChangesOnlyWithinIopl : Obligations.IfChangesOnlyWithinIopl := by
  intro s t h hmode hcpl
  have hno := State.not_sensitiveAllowed hmode hcpl
  obtain ⟨i, -, hr⟩ | ⟨p, -, -, rfl⟩ := step_ran h
  · exact hr.interruptEnable_eq hno
  · rfl

/-- Settles O25: the guard of `CLI` and `STI`, passed and not passed. -/
theorem sensitiveFlagInstructions : Obligations.SensitiveFlagInstructions := by
  refine ⟨⟨rfl, rfl⟩, ⟨rfl, rfl⟩, fun s hl hr => ?_⟩
  rw [← State.currentCpl_eq_ite, exec_cli_of_accepted hl hr, exec_sti_of_accepted hl hr]
  refine ⟨fun hpass => ?_, fun ⟨hmode, hcpl⟩ => ?_⟩
  · have hallowed := State.sensitiveAllowed_iff.2 hpass
    exact ⟨sensitive_of_allowed hallowed, sensitive_of_allowed hallowed⟩
  · have hno := State.not_sensitiveAllowed hmode hcpl
    exact ⟨sensitive_of_not_allowed hno, sensitive_of_not_allowed hno⟩

/-- Settles O26: outside virtual 8086 mode the machine's filters are those of R153. -/
theorem popfFiltersFlags : Obligations.PopfFiltersFlags := by
  refine ⟨⟨rfl, rfl⟩, ⟨rfl, rfl⟩, fun s i hi hl hr => ?_⟩
  rw [exec_of_popf hi]
  exact ⟨popFlags_of_accepted hl hr, popFlags_of_virtual8086 hl hr⟩

end Sys2Proof.Machine
end
section
/-! Protection (60_exceptions.md): the check against what the map allows, the instructions that the check stops, the
cases of the general protection exception, and the ports a step may reach. -/

namespace Sys2Proof.Machine

section
variable {s t : State} {p : Port} {w : Width}

/-! ### The map, in the terms of `mapAllows` (60_exceptions.md R164 to R167, R181) -/

theorem consultMap_of_tssRefusal {r : Refusal} (h : s.tssRefusal = some r) : s.consultMap p w = .refuse r := by
  rw [State.consultMap, h]

theorem consultMap_of_mapAllows (h : mapAllows s p w) : s.consultMap p w = .pass := by
  obtain ⟨husable, hmap, hfetch, hports⟩ := h
  have hnone : ¬ (List.range (widthBytes w)).any fun k => s.portDenied (p.toNat + k) := by
    simp only [List.any_eq_true, List.mem_range, portDenied_iff, widthBytes_eq, not_exists, not_and, not_or, not_not,
      Bool.not_eq_true]
    exact hports
  rw [State.consultMap, husable]
  dsimp only
  rw [ioMapBase_eq, if_neg (Nat.not_le.2 hmap), if_neg fun ⟨htwo, hlt⟩ => Nat.not_le.2 hlt (hfetch htwo), if_neg hnone]

/-- A map that can be consulted denies whatever it does not allow. -/
theorem consultMap_of_not_mapAllows (hu : tssUsable s) (h : ¬ mapAllows s p w) : s.consultMap p w = .deny := by
  rw [State.consultMap_deny hu, ioMapBase_eq, widthBytes_eq]
  by_contra hno
  simp only [portDenied_iff, not_or, not_and, not_exists, not_not, not_le, not_lt, Bool.not_eq_true] at hno
  exact h ⟨hu, hno⟩

/-! ### The check (60_exceptions.md R161 to R164) -/

theorem not_mapDecides_of_realMode (h : s.mode = .realMode) : ¬ mapDecides s := by simp [mapDecides, h]

/-- In protected mode the map decides exactly where CPL > IOPL. -/
theorem mapDecides_iff_of_protectedMode (h : s.mode = .protectedMode) : mapDecides s ↔ s.flags.iopl < s.cpl := by
  simp [mapDecides, h]

theorem ioCheck_of_mapAllows (h : mapAllows s p w) : s.ioCheck p w = .pass := by
  by_cases hd : mapDecides s
  · rw [ioCheck_of_mapDecides hd, consultMap_of_mapAllows h]
  · exact ioCheck_of_not_mapDecides hd p w

theorem ioCheck_of_not_mapAllows (hd : mapDecides s) (hu : tssUsable s) (h : ¬ mapAllows s p w) :
    s.ioCheck p w = .deny := by
  rw [ioCheck_of_mapDecides hd, consultMap_of_not_mapAllows hu h]

theorem ioCheck_of_tssRefusal (hd : mapDecides s) {r : Refusal} (h : s.tssRefusal = some r) :
    s.ioCheck p w = .refuse r := by
  rw [ioCheck_of_mapDecides hd, consultMap_of_tssRefusal h]

theorem ioCheck_pass_iff : s.ioCheck p w = .pass ↔ ¬ mapDecides s ∨ mapAllows s p w := by
  refine ⟨fun hpass => ?_, fun h => h.elim (ioCheck_of_not_mapDecides · p w) ioCheck_of_mapAllows⟩
  by_contra hno
  obtain ⟨hd, hallows⟩ := not_or.1 hno
  rw [not_not] at hd
  cases hr : s.tssRefusal with
  | none => simp [ioCheck_of_not_mapAllows hd hr hallows] at hpass
  | some r => simp [ioCheck_of_tssRefusal hd hr] at hpass

theorem ioCheck_deny_iff : s.ioCheck p w = .deny ↔ mapDecides s ∧ tssUsable s ∧ ¬ mapAllows s p w := by
  refine ⟨fun hdeny => ?_, fun ⟨hd, hu, hno⟩ => ioCheck_of_not_mapAllows hd hu hno⟩
  have hd : mapDecides s := by
    by_contra hd
    simp [ioCheck_of_not_mapDecides hd] at hdeny
  refine ⟨hd, ?_, fun hallows => by simp [ioCheck_of_mapAllows hallows] at hdeny⟩
  cases hr : s.tssRefusal with
  | none => exact hr
  | some r => simp [ioCheck_of_tssRefusal hd hr] at hdeny

/-- The verdict is settled by whether the map decides, whether it can be consulted, and what it allows. -/
theorem ioCheck_congr (hd : mapDecides t ↔ mapDecides s) (hr : t.tssRefusal = s.tssRefusal)
    (ha : mapAllows t p w ↔ mapAllows s p w) : t.ioCheck p w = s.ioCheck p w := by
  by_cases hds : mapDecides s
  · have hdt := hd.2 hds
    cases hrs : s.tssRefusal with
    | some r => rw [ioCheck_of_tssRefusal hds hrs, ioCheck_of_tssRefusal hdt (hr.trans hrs)]
    | none =>
      by_cases has : mapAllows s p w
      · rw [ioCheck_of_mapAllows has, ioCheck_of_mapAllows (ha.2 has)]
      · rw [ioCheck_of_not_mapAllows hds hrs has, ioCheck_of_not_mapAllows hdt (hr.trans hrs) (mt ha.1 has)]
  · rw [ioCheck_of_not_mapDecides hds, ioCheck_of_not_mapDecides (mt hd.1 hds)]

/-- Where the map does not decide, the check passes whatever memory holds: it is not read. -/
theorem ioCheck_setMem_of_not_mapDecides (h : ¬ mapDecides s) (m : Memory) (p : Port) (w : Width) :
    (s.setMem m).ioCheck p w = .pass := ioCheck_of_not_mapDecides (s := s.setMem m) h p w

/-! ### What the map does not allow (60_exceptions.md R165, R166, R181) -/

/-- One port of the span that is not in the map with its bit 0 is enough for the map not to allow the transfer. -/
theorem not_mapAllows_of_port {k : Nat} (hk : k < bytesOf w)
    (h : inMap s (p.toNat + k) → mapBit s (p.toNat + k) = true) : ¬ mapAllows s p w := by
  rintro ⟨-, -, -, hports⟩
  obtain ⟨hin, hzero⟩ := hports k hk
  exact Bool.false_ne_true (hzero.symm.trans (h hin))

/-- Where the last byte of the TSS is all ones, a transfer that the map allows does not test it first, so that the byte
after the first tested one is inside (92_eei_decisions.md D18). -/
theorem mapAllows.next_byte_inside (h : mapAllows s p w)
    (hones : Memory.read s.mem (s.tssBase.toNat + s.tssLimit.toNat) = 0xFF) :
    mapBase s + p.toNat / 8 + 1 ≤ s.tssLimit.toNat := by
  obtain ⟨-, -, -, hports⟩ := h
  obtain ⟨⟨-, hin⟩, hzero⟩ := hports 0 (bytesOf_pos w)
  rw [Nat.add_zero] at hin hzero
  by_contra hlast
  have hbyte : mapBase s + p.toNat / 8 = s.tssLimit.toNat := by omega
  have hones : Memory.read s.mem (s.tssBase.toNat + s.tssLimit.toNat) = BitVec.allOnes 8 := hones
  rw [mapBit, hbyte, hones, BitVec.getLsbD_allOnes, decide_eq_false_iff_not] at hzero
  exact hzero (Nat.mod_lt _ (by decide))

/-! ### What the check does to an instruction with a transfer to make -/

theorem exec_of_ioCheck_deny {i : Instr} (h : Attempts i s) (ht : transferOf i s = some (p, w))
    (hc : s.ioCheck p w = .deny) : exec i s = .fault (.generalProtection (.port p w)) := by
  obtain ⟨body, finish, hexec⟩ := exec_of_transfer h ht
  rw [hexec, guarded_of_deny hc, andThen]

theorem exec_of_ioCheck_refuse {i : Instr} {r : Refusal} (h : Attempts i s) (ht : transferOf i s = some (p, w))
    (hc : s.ioCheck p w = .refuse r) : exec i s = .refused r := by
  obtain ⟨body, finish, hexec⟩ := exec_of_transfer h ht
  rw [hexec, guarded, hc, andThen]

/-! ### The TSS that cannot be consulted (60_exceptions.md R182) -/

theorem tssRefusal_of_older (h : s.cfg.tssKind = .older) : s.tssRefusal = some .tssNotI386 := by
  rw [State.tssRefusal, if_pos (by simp [h])]

theorem tssRefusal_of_small (hkind : s.cfg.tssKind = .i386) (h : s.tssLimit.toNat < 0x67) :
    s.tssRefusal = some .tssTooSmall := by
  rw [State.tssRefusal, if_neg (not_not.2 hkind), tssFixedLast, if_pos h]

theorem tssRefusal_of_pastMemory (hkind : s.cfg.tssKind = .i386) (hlimit : 0x67 ≤ s.tssLimit.toNat)
    (h : 2 ^ 32 ≤ s.tssBase.toNat + s.tssLimit.toNat) : s.tssRefusal = some .tssNotReadable := by
  rw [State.tssRefusal, if_neg (not_not.2 hkind), tssFixedLast, if_neg (Nat.not_lt.2 hlimit), memorySize, if_pos h]

theorem State.isDevice_iff {x : Nat} :
    s.isDevice x = true ↔ ∃ d ∈ s.cfg.devices, d.start ≤ x ∧ x < d.start + d.size := by
  simp only [State.isDevice, List.any_eq_true, Bool.and_eq_true, decide_eq_true_iff]

/-- A window has a location in a range exactly where it is not empty, starts no later than the range ends, and ends
after the range starts. -/
theorem window_meets_iff (d : DeviceWindow) {first last : Nat} (h : first ≤ last) :
    (0 < d.size ∧ d.start ≤ last) ∧ first < d.start + d.size ↔
      ∃ x, (d.start ≤ x ∧ x < d.start + d.size) ∧ first ≤ x ∧ x ≤ last := by
  constructor
  · rintro ⟨⟨hsize, hlast⟩, hfirst⟩
    exact ⟨max d.start first, by omega⟩
  · rintro ⟨x, hwindow, hrange⟩
    omega

/-- A device's location is among the bytes of the TSS from the I/O map base field on (60_exceptions.md R182). -/
def DeviceInTss (s : State) : Prop :=
  ∃ x, s.tssBase.toNat + 0x66 ≤ x ∧ x ≤ s.tssBase.toNat + s.tssLimit.toNat ∧ s.isDevice x = true

theorem deviceInTss_iff (hlimit : 0x66 ≤ s.tssLimit.toNat) :
    DeviceInTss s ↔
      ∃ d ∈ s.cfg.devices, (0 < d.size ∧ d.start ≤ s.tssBase.toNat + s.tssLimit.toNat) ∧
        s.tssBase.toNat + 0x66 < d.start + d.size := by
  simp only [window_meets_iff _ (Nat.add_le_add_left hlimit s.tssBase.toNat), DeviceInTss, State.isDevice_iff]
  constructor
  · rintro ⟨x, hfirst, hlast, d, hd, hwindow⟩
    exact ⟨d, hd, x, hwindow, hfirst, hlast⟩
  · rintro ⟨d, hd, x, hwindow, hfirst, hlast⟩
    exact ⟨x, hfirst, hlast, d, hd, hwindow⟩

/-- A TSS of the kind, long enough and inside memory, is refused exactly where a device is in it. -/
theorem tssRefusal_of_inMemory (hkind : s.cfg.tssKind = .i386) (hlimit : 0x67 ≤ s.tssLimit.toNat)
    (hmem : s.tssBase.toNat + s.tssLimit.toNat < 2 ^ 32) :
    (DeviceInTss s → s.tssRefusal = some .tssNotReadable) ∧ (¬ DeviceInTss s → s.tssRefusal = none) := by
  rw [State.tssRefusal, if_neg (not_not.2 hkind), tssFixedLast, if_neg (Nat.not_lt.2 hlimit), memorySize,
    if_neg (Nat.not_le.2 hmem), deviceInTss_iff (Nat.le_of_succ_le hlimit)]
  simp only [List.any_eq_true, Bool.and_eq_true, decide_eq_true_iff]
  exact ⟨fun h => if_pos h, fun h => if_neg h⟩

/-! ### The modes (60_exceptions.md R161, R162, R168, R183) -/

theorem exec_cli_sti_of_allowed (hl : s.prefixes.count + 1 ≤ 15) (hr : Unrepeated s)
    (h : s.mode = .realMode ∨ s.currentCpl ≤ s.flags.iopl) :
    (∃ t, exec .cli s = .next t) ∧ ∃ t, exec .sti s = .next t := by
  have hallowed := State.sensitiveAllowed_iff.2 h
  rw [exec_cli_of_accepted hl hr, exec_sti_of_accepted hl hr, sensitive_of_allowed hallowed,
    sensitive_of_allowed hallowed]
  exact ⟨⟨_, rfl⟩, _, rfl⟩

theorem exec_cli_sti_of_not_allowed (hl : s.prefixes.count + 1 ≤ 15) (hr : Unrepeated s) (hmode : s.mode ≠ .realMode)
    (hcpl : s.flags.iopl < s.currentCpl) :
    exec .cli s = .fault (.generalProtection .cli) ∧ exec .sti s = .fault (.generalProtection .sti) := by
  have hno := State.not_sensitiveAllowed hmode hcpl
  rw [exec_cli_of_accepted hl hr, exec_sti_of_accepted hl hr, sensitive_of_not_allowed hno,
    sensitive_of_not_allowed hno]
  exact ⟨rfl, rfl⟩

theorem State.currentCpl_of_protectedMode (h : s.mode = .protectedMode) : s.currentCpl = s.cpl :=
  State.currentCpl_of_ne_virtual8086 (by simp [h])

theorem State.currentCpl_of_virtual8086 (h : s.mode = .virtual8086) : s.currentCpl = 3 := by
  rw [State.currentCpl_eq_ite, if_pos h]

/-- The greatest level there is. -/
theorem level_le_three (x : BitVec 2) : x ≤ 3 := by
  revert x
  decide

end

/-! ### The statements -/

/-- Settles O29: the four ways not to be allowed by a map that can be consulted. -/
theorem checkDeniesExactly : Obligations.CheckDeniesExactly := by
  intro s p w
  rw [ioCheck_deny_iff]
  refine and_congr_right fun _ => and_congr_right fun hu => ?_
  simp only [mapAllows, hu, true_and, not_and_or, not_lt, Classical.not_imp, not_le, not_forall, Bool.not_eq_false]

/-- Settles O35: the byte after the first tested one is beyond the limit. -/
theorem fetchTwoDeniesLastMapByte : Obligations.FetchTwoDeniesLastMapByte := by
  intro s p w hd hu htwo hlimit hp
  refine ioCheck_of_not_mapAllows hd hu ?_
  rintro ⟨-, -, hfetch, -⟩
  have := hfetch htwo
  omega

/-- Settles O31: a port whose byte the limit does not reach is not in the map. -/
theorem portsBeyondMapDenied : Obligations.PortsBeyondMapDenied := by
  intro s hd hu _
  have hbeyond (p : Port) (w : Width) (k : Nat) (hk : k < bytesOf w)
      (h : s.tssLimit.toNat < mapBase s + (p.toNat + k) / 8) : s.ioCheck p w = .deny :=
    ioCheck_of_not_mapAllows hd hu (not_mapAllows_of_port hk fun ⟨_, hin⟩ => absurd hin (Nat.not_le.2 h))
  refine ⟨hbeyond, fun hlimit => ⟨fun a => ?_, fun p w hspan => ?_⟩⟩
  · rw [inMap]
    omega
  · have hpos := bytesOf_pos w
    exact hbeyond p w (bytesOf w - 1) (by omega) (by omega)

/-- Settles O34: where the first tested byte is not the last one of the TSS, the byte after it is inside. -/
theorem terminatedMapMakesFetchAgree : Obligations.TerminatedMapMakesFetchAgree := by
  intro s p w hones
  refine ioCheck_congr Iff.rfl rfl ⟨fun h => ?_, fun h => ?_⟩
  · have hinside := h.next_byte_inside hones
    obtain ⟨hu, hmap, -, hports⟩ := h
    exact ⟨hu, hmap, fun _ => hinside, hports⟩
  · obtain ⟨hu, hmap, -, hports⟩ := h
    exact ⟨hu, hmap, nofun, hports⟩

/-- Settles O30: with the ports in the map, the bits are what is left of `mapAllows`. -/
theorem mapBitsDecideTransfer : Obligations.MapBitsDecideTransfer := by
  intro s p w hd hu hmap hin someSet allZero
  have hdeny : someSet → s.ioCheck p w = .deny := fun ⟨_, hk, hset⟩ =>
    ioCheck_of_not_mapAllows hd hu (not_mapAllows_of_port hk fun _ => hset)
  have hpass : allZero → (s.cfg.iopbFetch = .two → mapBase s + p.toNat / 8 + 1 ≤ s.tssLimit.toNat) →
      s.ioCheck p w = .pass := fun hzero hfetch =>
    ioCheck_of_mapAllows ⟨hu, hmap, hfetch, fun k hk => ⟨hin k hk, hzero k hk⟩⟩
  have hbits : ¬ someSet ↔ allZero := by simp only [someSet, allZero, not_exists, not_and, Bool.not_eq_true]
  refine ⟨hdeny, hpass, fun hone => ?_, fun i h ht hset => exec_of_ioCheck_deny h ht (hdeny hset)⟩
  have hpass : allZero → s.ioCheck p w = .pass := (hpass · (by simp [hone]))
  refine ⟨⟨hdeny, fun hc => ?_⟩, hpass, fun hc => ?_⟩
  · by_contra hno
    simp [hpass (hbits.1 hno)] at hc
  · refine hbits.1 fun hset => ?_
    simp [hdeny hset] at hc

/-- Settles O32: without a map no transfer is allowed. -/
theorem noMapDeniesEveryPort : Obligations.NoMapDeniesEveryPort := by
  intro s hd hu hnomap
  have hdeny (p : Port) (w : Width) : s.ioCheck p w = .deny :=
    ioCheck_of_not_mapAllows hd hu fun ⟨_, hmap, _⟩ => Nat.not_le.2 hmap hnomap
  exact ⟨hdeny, fun i p w h ht => exec_of_ioCheck_deny h ht (hdeny p w)⟩

/-- Settles O37: the conditions on the TSS in the order they are looked at. -/
theorem unusableTssRefused : Obligations.UnusableTssRefused := by
  intro s p w hd
  refine ⟨fun hkind => ?_, fun hkind hlimit => ?_, fun hkind hlimit hmem => ?_, fun hkind hlimit hmem => ⟨?_, ?_⟩,
    fun i r h ht => exec_of_ioCheck_refuse h ht⟩
  · exact ioCheck_of_tssRefusal hd (tssRefusal_of_older hkind)
  · exact ioCheck_of_tssRefusal hd (tssRefusal_of_small hkind hlimit)
  · exact ioCheck_of_tssRefusal hd (tssRefusal_of_pastMemory hkind hlimit hmem)
  · exact fun x hfirst hlast hdev =>
      ioCheck_of_tssRefusal hd ((tssRefusal_of_inMemory hkind hlimit hmem).1 ⟨x, hfirst, hlast, hdev⟩)
  · refine fun hplain => (tssRefusal_of_inMemory hkind hlimit hmem).2 ?_
    rintro ⟨x, hfirst, hlast, hdev⟩
    exact Bool.false_ne_true ((hplain x hfirst hlast).symm.trans hdev)

/-- Settles O27. -/
theorem realModeUnprotected : Obligations.RealModeUnprotected := fun _ hmode =>
  ⟨ioCheck_setMem_of_not_mapDecides (not_mapDecides_of_realMode hmode),
    fun hl hr => exec_cli_sti_of_allowed hl hr (.inl hmode)⟩

/-- Settles O28: every level is at most 3, and every level but 0 is above IOPL 0. -/
theorem ioplAdmitsInProtectedMode : Obligations.IoplAdmitsInProtectedMode := by
  intro s hmode hl hr
  have hcpl := State.currentCpl_of_protectedMode hmode
  have executes (h : s.cpl ≤ s.flags.iopl) := exec_cli_sti_of_allowed hl hr (.inr (hcpl.symm ▸ h))
  have raises (h : s.flags.iopl < s.cpl) := exec_cli_sti_of_not_allowed hl hr (by simp [hmode]) (hcpl.symm ▸ h)
  refine ⟨fun h => ⟨?_, executes h⟩, raises, fun h3 => executes (h3 ▸ level_le_three s.cpl), fun h0 hne => raises ?_⟩
  · refine ioCheck_setMem_of_not_mapDecides ?_
    rwa [mapDecides_iff_of_protectedMode hmode, BitVec.not_lt]
  · rw [h0]
    exact (BitVec.pos_iff_ne_zero _).2 hne

/-- Settles O33: the map decides in virtual 8086 mode by the mode alone, and does not look at the flags. -/
theorem virtualModeIgnoresIopl : Obligations.VirtualModeIgnoresIopl := by
  intro s hmode
  have hcpl := State.currentCpl_of_virtual8086 hmode
  refine ⟨fun f c p w => ?_, fun p w hpass => ?_, fun hl hr => ⟨fun h3 => ?_, fun hne => ?_⟩⟩
  · exact ioCheck_congr (iff_of_true (.inr hmode) (.inr hmode)) rfl Iff.rfl
  · obtain ⟨-, -, -, hports⟩ := (ioCheck_pass_iff.1 hpass).resolve_left (not_not.2 (.inr hmode))
    exact hports
  · exact exec_cli_sti_of_allowed hl hr (.inr (by rw [hcpl, h3]; exact BitVec.le_refl 3))
  · refine exec_cli_sti_of_not_allowed hl hr (by simp [hmode]) ?_
    rw [hcpl]
    exact BitVec.lt_of_le_ne (level_le_three s.flags.iopl) hne

end Sys2Proof.Machine
end
section
/-! What stops a transfer and what lets it through: the outcome table (60_exceptions.md R183), the exact cases of the
general protection exception (R169), and the ports that a step reaches (R160). -/

namespace Sys2Proof.Machine

section
variable {s u t : State} {i : Instr} {c : GpCause} {p : Port} {w : Width} {k : State → Result}

/-! ### The outcome table (60_exceptions.md R183) -/

/-- `POPF` outside virtual 8086 mode, for any way to say when it may change IF and IOPL (42_flag_instructions.md
R153). -/
theorem exec_popf_changes {newIf newIopl : Prop} (hl : s.prefixes.count + 1 ≤ 15) (hr : Unrepeated s)
    (hmode : s.mode ≠ .virtual8086) (hif : newIf ↔ s.mode = .realMode ∨ s.cpl ≤ s.flags.iopl)
    (hiopl : newIopl ↔ s.mode = .realMode ∨ s.cpl = 0) :
    ∃ t, exec .popf s = .next t ∧
      (newIf → t.flags.interruptEnable = s.nextAnswer.getLsbD 9) ∧
      (¬ newIf → t.flags.interruptEnable = s.flags.interruptEnable) ∧
      (newIopl → t.flags.iopl = s.nextAnswer.extractLsb' 12 2) ∧ (¬ newIopl → t.flags.iopl = s.flags.iopl) :=
  ⟨_, popFlags_of_accepted hl hr hmode, fun h => if_pos (hif.1 h), fun h => if_neg (mt hif.2 h),
    fun h => if_pos (hiopl.1 h), fun h => if_neg (mt hiopl.2 h)⟩

/-! ### Where an operation raises the exception (60_exceptions.md R169) -/

theorem accepting_eq_generalProtection_iff {n : Nat} {string : Bool} :
    accepting n string s k = .fault (.generalProtection c) ↔
      s.prefixes.count + n ≤ maxLength ∧ s.prefixes.refusedOn string = none ∧ k s = .fault (.generalProtection c) := by
  rw [accepting, withinLength]
  split_ifs with hl
  · simp [Nat.not_le.2 hl]
  · cases s.prefixes.refusedOn string <;> simp [Nat.not_lt.1 hl]

theorem notePrefix_ne_generalProtection (q : Prefixes) : notePrefix q s ≠ .fault (.generalProtection c) := by
  rw [notePrefix, withinLength]
  split_ifs <;> simp

/-- A guarded transfer raises it exactly where the check denies, when what comes after the guard never does. -/
theorem guarded_eq_generalProtection_iff (hk : k s ≠ .fault (.generalProtection c)) :
    guarded p w s k = .fault (.generalProtection c) ↔ c = .port p w ∧ s.ioCheck p w = .deny := by
  rw [guarded]
  cases s.ioCheck p w with
  | deny => simp [raiseGeneralProtection, eq_comm]
  | refuse r => simp
  | pass =>
    dsimp only
    split_ifs <;> simp [hk]

theorem insElement_eq_generalProtection_iff :
    insElement w s = .fault (.generalProtection c) ↔ c = .port s.dxPort w ∧ s.ioCheck s.dxPort w = .deny := by
  refine guarded_eq_generalProtection_iff ?_
  cases s.insLocations w with
  | none => simp
  | some as =>
    dsimp only
    split_ifs <;> simp

theorem outsElement_eq_generalProtection_iff :
    outsElement w s = .fault (.generalProtection c) ↔ c = .port s.dxPort w ∧ s.ioCheck s.dxPort w = .deny := by
  refine guarded_eq_generalProtection_iff ?_
  cases s.outsLocations w <;> simp

theorem andThen_next_eq_fault_iff {r : Result} {f : Fault} {finish : State → State} :
    (andThen r fun u => .next (finish u)) = .fault f ↔ r = .fault f := by
  cases r <;> simp [andThen]

theorem accepted_iff :
    Accepted i s ↔ s.prefixes.count + i.opLength ≤ maxLength ∧ s.prefixes.refusedOn i.isString = none :=
  and_congr_right' refusedOn_none.symm

/-- An instruction that is no string instruction makes its checks whenever it is accepted. -/
theorem attempts_iff_of_not_isString (hs : i.isString = false) :
    Attempts i s ↔ s.prefixes.count + i.opLength ≤ maxLength ∧ s.prefixes.refusedOn false = none := by
  rw [Attempts, accepted_iff, hs, and_iff_left_iff_imp]
  rintro ⟨-, hnone⟩ hrep
  obtain ⟨hunrepeated, -⟩ := refusedOn_false.1 hnone
  exact absurd hrep (Bool.eq_false_iff.1 hunrepeated)

/-- A string instruction raises it exactly where an element that it attempts does: a zero count attempts none. -/
theorem repeated_eq_generalProtection_iff (hs : i.isString = true) {element : State → Result} :
    repeated s element = .fault (.generalProtection c) ↔
      Attempts i s ∧ element s = .fault (.generalProtection c) := by
  rw [repeated, accepting_eq_generalProtection_iff, Attempts, accepted_iff, opLength_of_isString hs, hs,
    ← repeatCount_eq, and_assoc, and_assoc]
  refine and_congr_right fun _ => and_congr_right fun _ => ?_
  cases hrep : s.prefixes.rep with
  | false => simp [andThen_next_eq_fault_iff]
  | true =>
    by_cases hzero : s.repeatCount = 0
    · simp [hzero]
    · rw [if_pos rfl, if_neg hzero]
      exact andThen_next_eq_fault_iff.trans (and_iff_right fun _ => hzero).symm

/-! ### Which instructions raise it (60_exceptions.md R169) -/

theorem exec_transfer_eq_generalProtection_iff (ht : transferOf i s = some (p, w)) :
    exec i s = .fault (.generalProtection c) ↔ Attempts i s ∧ c = .port p w ∧ s.ioCheck p w = .deny := by
  cases hs : i.isString with
  | false =>
    rw [attempts_iff_of_not_isString hs, and_assoc]
    cases hi : isIn i with
    | false =>
      rw [exec_of_isOut hi hs ht, outputTo, plain, accepting_eq_generalProtection_iff,
        guarded_eq_generalProtection_iff (by simp)]
    | true =>
      rw [exec_of_isIn hi ht, inputFrom, plain, accepting_eq_generalProtection_iff,
        guarded_eq_generalProtection_iff (by simp)]
  | true =>
    obtain ⟨w', hw⟩ | ⟨w', hw⟩ := width_of_isString hs
    · cases (transferOf_of_insWidth hw s).symm.trans ht
      rw [exec_of_insWidth hw, repeated_eq_generalProtection_iff hs, insElement_eq_generalProtection_iff]
    · cases (transferOf_of_outsWidth hw s).symm.trans ht
      rw [exec_of_outsWidth hw, repeated_eq_generalProtection_iff hs, outsElement_eq_generalProtection_iff]

theorem State.not_sensitiveAllowed_iff :
    ¬ s.sensitiveAllowed = true ↔ s.mode ≠ .realMode ∧ s.flags.iopl < s.currentCpl := by
  rw [State.sensitiveAllowed_iff, not_or, BitVec.not_le]

theorem sensitive_eq_generalProtection_iff {cause : GpCause} (hk : k s ≠ .fault (.generalProtection c)) :
    sensitive cause s k = .fault (.generalProtection c) ↔
      cause = c ∧ s.mode ≠ .realMode ∧ s.flags.iopl < s.currentCpl := by
  rw [← State.not_sensitiveAllowed_iff, sensitive]
  split_ifs with h
  · simp [hk, h]
  · simp [raiseGeneralProtection, h]

theorem exec_sensitive_eq_generalProtection_iff {cause : GpCause} (hi : sensitiveCause i = some cause) :
    exec i s = .fault (.generalProtection c) ↔
      Attempts i s ∧ cause = c ∧ s.mode ≠ .realMode ∧ s.flags.iopl < s.currentCpl := by
  obtain ⟨rfl, rfl⟩ | ⟨rfl, rfl⟩ : (i = .cli ∧ cause = .cli) ∨ (i = .sti ∧ cause = .sti) := by
    cases i <;> simp_all [sensitiveCause]
  · rw [attempts_iff_of_not_isString rfl, and_assoc, exec, execCli, plain, accepting_eq_generalProtection_iff,
      sensitive_eq_generalProtection_iff (by simp)]
    rfl
  · rw [attempts_iff_of_not_isString rfl, and_assoc, exec, execSti, plain, accepting_eq_generalProtection_iff,
      sensitive_eq_generalProtection_iff (by simp)]
    rfl

theorem popFlags_ne_generalProtection : popFlags s ≠ .fault (.generalProtection c) := by
  rw [popFlags, plain, ne_eq, accepting_eq_generalProtection_iff]
  rintro ⟨-, -, hk⟩
  cases hm : s.mode <;> simp [hm] at hk

/-- An instruction that is neither sensitive nor transfers is `POPF`, `POPFD` or a prefix, and never raises it. -/
theorem exec_ne_generalProtection (hi : sensitiveCause i = none) (ht : transferOf i s = none) :
    exec i s ≠ .fault (.generalProtection c) := by
  obtain hpopf | hprefix : (i = .popf ∨ i = .popfd) ∨ i.isPrefix = true := by
    cases i <;> simp_all [sensitiveCause, transferOf, Instr.isPrefix]
  · rw [exec_of_popf hpopf]
    exact popFlags_ne_generalProtection
  · rw [exec_of_isPrefix hprefix]
    exact notePrefix_ne_generalProtection _

theorem transferOf_of_sensitiveCause (hi : sensitiveCause i = some c) (s : State) : transferOf i s = none := by
  cases i <;> simp_all [sensitiveCause, transferOf]

/-! ### The ports a step reaches (60_exceptions.md R160) -/

/-- At most two events, and every port among them may be reached, and is one, at its width. -/
def PermittedEvents (s : State) (es : List Event) : Prop :=
  es.length ≤ 2 ∧ ∀ (p : Port) (w : Width) (v : Word), .portRead p w v ∈ es ∨ .portWrite p w v ∈ es →
    permitted s p w ∧ p.toNat + bytesOf w - 1 ≤ 65535

theorem permittedEvents_nil (s : State) : PermittedEvents s [] := ⟨by simp, by simp⟩

theorem permitted_of_ioCheck_pass (h : s.ioCheck p w = .pass) : permitted s p w := by
  obtain hno | hallows := ioCheck_pass_iff.1 h
  · cases hmode : s.mode with
    | realMode => exact .inl hmode
    | protectedMode =>
      rw [mapDecides_iff_of_protectedMode hmode, BitVec.not_lt] at hno
      exact .inr (.inl ⟨hmode, hno⟩)
    | virtual8086 => exact absurd (.inr hmode) hno
  · exact .inr (.inr hallows)

/-- The port and the width of a port event. -/
def Event.transfer : Event → Option (Port × Width)
  | .portRead p w _ | .portWrite p w _ => some (p, w)
  | .deviceRead _ _ | .deviceWrite _ _ => none

/-- Events that reach no ports but those of one transfer, which the check passes and whose span exists. -/
theorem permittedEvents_of_pass {es : List Event} (hc : s.ioCheck p w = .pass) (hp : p.toNat + widthBytes w ≤ 65536)
    (hlen : es.length ≤ 2)
    (hes : ∀ e ∈ es, e.transfer = none ∨ e.transfer = some (p, w)) : PermittedEvents s es := by
  refine ⟨hlen, fun p' w' v hmem => ?_⟩
  have htransfer : some (p', w') = some (p, w) :=
    hmem.elim (fun h => (hes _ h).resolve_left nofun) fun h => (hes _ h).resolve_left nofun
  cases htransfer
  rw [widthBytes_eq] at hp
  exact ⟨permitted_of_ioCheck_pass hc, by omega⟩

/-- `t` has the events of `s` and after them events that are permitted in `s`. -/
def AddsPermittedEvents (s t : State) : Prop := ∃ es, t.events = s.events ++ es ∧ PermittedEvents s es

theorem addsPermittedEvents_of_eq (h : t.events = s.events) : AddsPermittedEvents s t :=
  ⟨[], by rw [h, List.append_nil], permittedEvents_nil s⟩

theorem Element.addsPermittedEvents (h : Element s i u) : AddsPermittedEvents s u := by
  cases h with
  | @ins w as hi hc hp =>
    refine ⟨.portRead s.dxPort w (s.portValue w) ::
      (if s.touchesDevice as then [.deviceWrite as (s.portValue w)] else []), ?_, permittedEvents_of_pass hc hp ?_ ?_⟩
    · simp [State.memWrite_eq]; rfl
    · split_ifs <;> simp
    · split_ifs <;> simp [Event.transfer]
  | @outs w as hi hc hp =>
    refine ⟨(if s.touchesDevice as then [.deviceRead as (s.memValue as)] else []) ++
      [.portWrite s.dxPort w (truncTo w (s.memValue as))], ?_, permittedEvents_of_pass hc hp ?_ ?_⟩
    · rw [State.memRead_eq]
      split_ifs <;> simp
    · split_ifs <;> simp
    · split_ifs <;> simp [Event.transfer]

theorem Ran.addsPermittedEvents (h : Ran s i t) : AddsPermittedEvents s t := by
  cases h with
  | input _ _ _ _ hc hp => exact ⟨_, rfl, permittedEvents_of_pass hc hp (by simp) (by simp [Event.transfer])⟩
  | output _ _ _ _ _ hc hp => exact ⟨_, rfl, permittedEvents_of_pass hc hp (by simp) (by simp [Event.transfer])⟩
  | single _ _ _ hu | last _ _ _ _ hu | more _ _ _ _ hu => exact hu.addsPermittedEvents
  | zeroCount | cli | sti | popf | prefixByte => exact addsPermittedEvents_of_eq rfl

end

/-! ### The statements -/

/-- Settles O38: each row is whether the map decides, whether CPL ≤ IOPL, and whether CPL is 0. -/
theorem outcomeTable : Obligations.OutcomeTable := by
  intro s hl hr proceeds perMap sensitive raises popf
  have hproceeds (h : ¬ mapDecides s) : proceeds := ioCheck_of_not_mapDecides h
  have hperMap (h : mapDecides s) : perMap := ioCheck_of_mapDecides h
  have protectedMode (hmode : s.mode = .protectedMode) :
      (s.cpl ≤ s.flags.iopl → proceeds ∧ sensitive ∧ popf True (s.cpl = 0)) ∧
        (s.flags.iopl < s.cpl → perMap ∧ raises ∧ popf False False) := by
    have hmap := mapDecides_iff_of_protectedMode hmode
    have hcpl := State.currentCpl_of_protectedMode hmode
    have hnotReal : s.mode ≠ .realMode := by simp [hmode]
    have hnotVirtual : s.mode ≠ .virtual8086 := by simp [hmode]
    refine ⟨fun hle => ⟨hproceeds ?_, ?_, ?_⟩, fun hlt => ⟨hperMap (hmap.2 hlt), ?_, ?_⟩⟩
    · rwa [hmap, BitVec.not_lt]
    · exact exec_cli_sti_of_allowed hl hr (.inr (hcpl.symm ▸ hle))
    · exact exec_popf_changes hl hr hnotVirtual (by simp [hle]) (by simp [hnotReal])
    · exact exec_cli_sti_of_not_allowed hl hr hnotReal (hcpl.symm ▸ hlt)
    · have hne : s.cpl ≠ 0 := fun h0 => BitVec.not_lt_zero (h0 ▸ hlt)
      exact exec_popf_changes hl hr hnotVirtual (by simpa [hnotReal] using hlt)
        (iff_of_false id (not_or.2 ⟨hnotReal, hne⟩))
  have virtual8086 (hmode : s.mode = .virtual8086) :
      perMap ∧ exec .popf s = .refused .popfInVirtual8086 ∧ s.currentCpl = 3 :=
    ⟨hperMap (.inr hmode), popFlags_of_virtual8086 hl hr hmode, State.currentCpl_of_virtual8086 hmode⟩
  refine ⟨fun hmode => ?_, fun hmode h0 => ?_, fun hmode hpos hle => ?_, fun hmode => (protectedMode hmode).2,
    fun hmode h3 => ?_, fun hmode hlt => ?_⟩
  · exact ⟨hproceeds (not_mapDecides_of_realMode hmode), exec_cli_sti_of_allowed hl hr (.inl hmode),
      exec_popf_changes hl hr (by simp [hmode]) (by simp [hmode]) (by simp [hmode])⟩
  · have hrow := (protectedMode hmode).1 (by rw [h0]; exact BitVec.not_lt.1 BitVec.not_lt_zero)
    rwa [eq_true h0] at hrow
  · have hne : s.cpl ≠ 0 := (BitVec.pos_iff_ne_zero _).1 hpos
    have hrow := (protectedMode hmode).1 hle
    rwa [eq_false hne] at hrow
  · obtain ⟨hmap, hpopf, hcpl⟩ := virtual8086 hmode
    exact ⟨hmap, exec_cli_sti_of_allowed hl hr (.inr (by rw [hcpl, h3]; exact BitVec.le_refl 3)), hpopf⟩
  · obtain ⟨hmap, hpopf, hcpl⟩ := virtual8086 hmode
    exact ⟨hmap, exec_cli_sti_of_not_allowed hl hr (by simp [hmode]) (hcpl.symm ▸ hlt), hpopf⟩

/-- Settles O46: a row is sensitive, or it transfers, or it is neither. -/
theorem generalProtectionExactly : Obligations.GeneralProtectionExactly := by
  intro i s c
  cases hi : sensitiveCause i with
  | some cause =>
    rw [exec_sensitive_eq_generalProtection_iff hi, transferOf_of_sensitiveCause hi s]
    simp
  | none =>
    cases ht : transferOf i s with
    | none => simp [exec_ne_generalProtection hi ht]
    | some transfer =>
      obtain ⟨p, w⟩ := transfer
      rw [exec_transfer_eq_generalProtection_iff ht]
      simp

/-- Settles O47: every transfer that a step makes has passed its check. -/
theorem portEventsOnlyPermitted : Obligations.PortEventsOnlyPermitted := by
  intro s t h
  obtain ⟨i, -, hr⟩ | ⟨p, -, -, rfl⟩ := step_ran h
  · exact hr.addsPermittedEvents
  · exact addsPermittedEvents_of_eq rfl

end Sys2Proof.Machine
end
